-- ==== Sys2Proof/Word.lean ====
section
/-! DEFINITION. The two word types of A2M-FE (00_scope.md R9): every register location and every wire byte is a
`Byte`; the 16-bit values (`ADDR`, `VAL`, the CRC) are a `Word`. -/

namespace Sys2Proof

/-- `u8` of R9: one host location, one wire byte. -/
abbrev Byte := BitVec 8

/-- `u16` of R9: a wire field or a CRC value. -/
abbrev Word := BitVec 16

end Sys2Proof
end

