-- ==== Sys2Proof/Machine/Bits.lean ====
section
/-! DEFINITION. The bit-field and byte-order primitives of 00_scope.md R9. -/

namespace Sys2Proof

/-- `hi8(v) = v[15:8]` (R9). -/
def hi8 (v : Word) : Byte := v.extractLsb' 8 8

/-- `lo8(v) = v[7:0]` (R9). -/
def lo8 (v : Word) : Byte := v.extractLsb' 0 8

/-- `h ++ l`: concatenation with `h` in the high bits (R9). -/
def join (h l : Byte) : Word := h ++ l

/-- Byte `k` of a 32-bit value, byte 0 the least significant (R28, R43). -/
def byteOf32 (v : BitVec 32) (k : Nat) : Byte := v.extractLsb' (8 * k) 8

/-- A 32-bit value from its four bytes, most significant first (R28). -/
def join4 (b3 b2 b1 b0 : Byte) : BitVec 32 := join b3 b2 ++ join b1 b0

/-- `v` with byte `k` replaced by `b`: what a host write to one `BAUD` location does (R28, R39). -/
def setByte32 (v : BitVec 32) (k : Nat) (b : Byte) : BitVec 32 :=
  join4 (if k = 3 then b else byteOf32 v 3) (if k = 2 then b else byteOf32 v 2)
    (if k = 1 then b else byteOf32 v 1) (if k = 0 then b else byteOf32 v 0)

/-- A length written to an 8-bit register. -/
def len8 (n : Nat) : Byte := BitVec.ofNat 8 n

end Sys2Proof
end

