-- ==== Sys2Proof/Machine/Crc.lean ====
section
/-! DEFINITION. The CRC function of 41_crc.md R79 to R83: every CRC of the block is `crc16`. -/

namespace Sys2Proof

/-- One of the eight shifts of R79: shift right, and fold the polynomial in when the bit shifted out is 1. -/
def crcShift (c : Word) : Word :=
  if c.getLsbD 0 then (c >>> 1) ^^^ 0xA001#16 else c >>> 1

/-- `n` shifts in a row. -/
def crcShifts : Nat → Word → Word
  | 0, c => c
  | n + 1, c => crcShifts n (crcShift c)

/-- `crc_byte(c, b)` (R79). -/
def crcByte (c : Word) (b : Byte) : Word := crcShifts 8 (c ^^^ b.setWidth 16)

/-- `CRC16(s)` (R80), total: 0xFFFF for the empty sequence. -/
def crc16 (s : List Byte) : Word := s.foldl crcByte 0xFFFF#16

/-- The two CRC bytes as a frame carries them, low byte first (R41, R82, C1). -/
def crcTail (c : Word) : List Byte := [lo8 c, hi8 c]

/-- `recv` of R83: the last two bytes of a frame, read low byte first (C4). DESIGN CHOICE, safe: R83 defines it for a
length of at least 2 only. The empty sequence reads two zeros here, and a one-byte sequence reads its byte twice, so that
`[0xFF]` counts as valid; no rule asks about such a sequence (notes/assumptions/11.md). -/
def crcField (f : List Byte) : Word :=
  join (f.getD (f.length - 1) 0#8) (f.getD (f.length - 2) 0#8)

/-- `calc` of R83: the CRC over all bytes of a frame but the last two (R56). -/
def crcBody (f : List Byte) : Word := crc16 (f.take (f.length - 2))

/-- The validity test of R83. -/
def crcValid (f : List Byte) : Bool := decide (crcField f = crcBody f)

end Sys2Proof
end

