-- ==== Sys2Proof/Machine/Frames.lean ====
section
/-! DEFINITION. The layouts of the wire frames (30_encoding.md R56 to R64) and the parameters fixed by 00_scope.md R8:
the one place where the position of a field in a frame is written down. -/

namespace Sys2Proof

/-- `FC_READ` (R8). -/
def fcRead : Byte := 0x03#8

/-- `FC_WSINGLE` (R8). -/
def fcWriteSingle : Byte := 0x06#8

/-- `FC_WMULTI` (R8). -/
def fcWriteMulti : Byte := 0x10#8

/-- `FLOOR` = 5: unit id, function code, one error-code byte, two CRC bytes (R8). -/
def floorLen : Nat := 5

/-- `WACK_LEN` = 8 (R8). -/
def wackLen : Nat := 8

/-- The largest register count of a write-multiple request (R59, R72). -/
def maxCount : Nat := 123

/-- `TXBUF_SIZE` (R8). -/
def txBufSize : Nat := 255

/-- `RXBUF_SIZE` (R8). -/
def rxBufSize : Nat := 260

/-- Bytes 0 to 5 of every request: unit id, function code, and two fields most significant byte first (R40, R57, R58,
R59). -/
def reqHeader (unit fc : Byte) (addr val : Word) : List Byte :=
  [unit, fc, hi8 addr, lo8 addr, hi8 val, lo8 val]

/-- `byte_count` of a write-multiple request: `(2*N)[7:0]` (R59, D25). -/
def byteCount (count : Word) : Byte := len8 (2 * count.toNat)

/-- Bytes 0 to 6+2N of a write-multiple request: the header, the byte count and the data (R59). -/
def multiBody (unit : Byte) (addr count : Word) (data : List Byte) : List Byte :=
  reqHeader unit fcWriteMulti addr count ++ byteCount count :: data

/-- A frame body with its CRC stamped behind it (R56, R82). -/
def stamped (body : List Byte) : List Byte := body ++ crcTail (crc16 body)

/-- A function code the source calls valid: 0x03, 0x06 or 0x10 (R63). -/
def validFunction (fc : Byte) : Bool := fc == fcRead || fc == fcWriteSingle || fc == fcWriteMulti

end Sys2Proof
end

