-- ==== Sys2Proof/Config.lean ====
section
/-! DEFINITION. What an implementation fixes (the OPEN parameters of 00_scope.md R8), what the environment supplies to
one clock cycle (20_memory.md R37, 60_exceptions.md R127, 70_reset_and_hazards.md R145, 40_dispatch.md R71), and the
free values: opaque constants without a body, so that no proof can see what they are. -/

namespace Sys2Proof

/-- One access of the host port in one cycle: `h_addr`, `h_wdata`, `h_we`, `h_re` (R37). -/
structure BusCycle where
  addr  : BitVec 11
  wdata : Byte
  we    : Bool
  re    : Bool
deriving DecidableEq, Repr, Inhabited

/-- One instruction of the host program notation (30_encoding.md R67): a bus cycle (`wr`, `rd` and `idle` are bus
cycles), or the polling loop `wait`. -/
inductive HostOp where
  | bus (c : BusCycle)
  | wait
deriving DecidableEq, Repr, Inhabited

/-- What arrives at the block and its channel in one clock cycle besides the host access.
- `rst`: the reset input (R145).
- `txReady`: the channel takes an offered byte in this cycle (R127).
- `left`: how many taken bytes leave the line up to this cycle (R127 duty (b); see notes/assumptions/6.md).
- `arrivals`: the bytes first visible in the receive FIFO in this cycle, oldest first (R127 duty (f)).
- `extraLat`: the STAGE_LAT draw of this cycle less one, so that every draw is at least 1 (R71). -/
structure CycleInput where
  rst      : Bool
  txReady  : Bool
  left     : Nat
  arrivals : List Byte
  extraLat : Nat
deriving DecidableEq, Repr, Inhabited

/-- The OPEN parameters of one realisation (R8, R47). -/
structure Params where
  pollTries : Nat
  pollDelay : Nat
  baudReset : BitVec 32
  base      : Nat
deriving DecidableEq, Repr, Inhabited

/-- The admitted values of R8: both poll constants are at least 1. -/
abbrev Params.wf (p : Params) : Prop := 1 ≤ p.pollTries ∧ 1 ≤ p.pollDelay

/-- `POLL_TRIES` less one: OPEN (R8, D9). -/
opaque Config.pollTriesLessOne : Nat

/-- `POLL_DELAY` less one: OPEN (R8, D9). -/
opaque Config.pollDelayLessOne : Nat

/-- `BAUD_RESET`: OPEN (R8, D20). -/
opaque Config.baudReset : BitVec 32

/-- `A2MFE_BASE`: OPEN, read by no rule (R47). -/
opaque Config.base : Nat

/-- What a buffer byte not written since reset number `resets` holds, by host address: unspecified (R29, R30, R146,
U1). -/
opaque Config.unwrittenByte (resets addr : Nat) : Byte

/-- The inputs of a cycle that no schedule covers: free (R71, R127, R145). -/
opaque Config.freeInput (cycle : Nat) : CycleInput

/-- The host access of a cycle that no host program covers: free (R141). -/
opaque Config.freeBus (cycle : Nat) : BusCycle

/-- The parameters of the machine that starts in `State.reset`: every admitted value is one of these. -/
def Config.params : Params :=
  { pollTries := Config.pollTriesLessOne + 1
    pollDelay := Config.pollDelayLessOne + 1
    baudReset := Config.baudReset
    base      := Config.base }

end Sys2Proof
end

