-- ==== Sys2Proof/Machine/State.lean ====
section
/-! DEFINITION. The state of the machine as plain data: the block's registers (10_state.md R16 to R28), its buffers
(R29 to R31), its hidden state (R32), the channel agent (R33, 60_exceptions.md R127), and the environment: the open
parameters, the host's program and the scheduled inputs. INVENTORY.md lists every field with its rule and reset value. -/

namespace Sys2Proof.Machine

/-- No step of this machine faults: every outcome of every command is a status code, and a model must not turn one into
a fault (60_exceptions.md R129, R134). The type has no constructor. -/
inductive Fault
deriving DecidableEq, Repr

/-- Why an instruction has no next state. -/
inductive Refusal where
  /-- An instruction without a meaning yet. Raised only by an arm of `exec` that rejects its instruction by name; no
  such arm is left, so nothing raises it. Safe: it stops where the hardware goes on. -/
  | notModelled (mnemonic : String)
deriving DecidableEq, Repr

/-- Memory: the buffer bytes written since the last reset, by host address, addresses strictly rising. An address that
is not listed has no value of its own (notes/assumptions/5.md). -/
abbrev Memory := List Host.Cell

/-- The control state `st` (44_reassembly.md R120). -/
inductive Control where
  | idle
  | stage
  | tx
  | drain
  | rx
  | check
deriving DecidableEq, Repr

/-- `phase`: which stage STAGE is executing (10_state.md R32, 40_dispatch.md R69). -/
inductive Phase where
  | none
  | crcGen
  | crcChk
  | bRead
  | bWSingle
  | bWMulti
  | xStart
  | flush
  | badOp
deriving DecidableEq, Repr

/-- `pend`: whether a build phase continues into an exchange (R32, R69). -/
inductive Pend where
  | none
  | exchange
deriving DecidableEq, Repr

/-- `cls`: the response class (R32, 44_reassembly.md R107). -/
inductive RxClass where
  | none
  | read
  | wack
  | err
deriving DecidableEq, Repr

/-- The statuses `finish` can write and the reserved ones (30_encoding.md R66). -/
inductive Status where
  | none
  | done
  | commandError
  | noResponse
  | responseTooShort
  | invalidFrame
  | slaveError
  | writeSingleRegisterSuccess
  | writeDataRegisterSuccess
  | readDataRegisterSuccess
  | notHandledRegister
deriving DecidableEq, Repr

/-- The outputs the block drives in one cycle (44_reassembly.md R121). -/
structure Outputs where
  txValid : Bool
  txData  : Byte
  rxPop   : Bool
  rxFlush : Bool
  dir     : Bool
  baud    : BitVec 32
  hRdata  : Byte
deriving DecidableEq, Repr

/-- The channel agent (60_exceptions.md R127): the receive FIFO, oldest byte first; the bytes it has taken that are
still to leave the line; the bytes that have left the line, in order. -/
structure Channel where
  fifo   : List Byte
  unsent : List Byte
  sent   : List Byte
deriving DecidableEq, Repr

/-- Everything around the block: the open parameters (fixed), the host's remaining operations and the inputs scheduled
for the coming cycles, the cycle number, the number of resets, and the outputs of the cycle that has just ended. -/
structure Env where
  params : Params
  host   : List HostOp
  inputs : List CycleInput
  cycle  : Nat
  resets : Nat
  out    : Outputs
deriving DecidableEq, Repr

/-- The whole machine. `FLAGS.BUSY`, `RX_FRAME_LEN` and `RX_CLASS` have their home in `st`, `pos` and `cls`. -/
structure State where
  lastCmd      : Byte
  status       : Byte
  unitId       : Byte
  addr         : Word
  val          : Word
  txLen        : Byte
  rxFc         : Byte
  rxPayloadOff : Byte
  rxPayloadLen : Byte
  crcCalc      : Word
  crcRecv      : Word
  baud         : BitVec 32
  dir          : Bool
  crcMatch     : Bool
  mem          : Memory
  st           : Control
  op           : Byte
  phase        : Phase
  lat          : Nat
  txi          : Byte
  pos          : BitVec 9
  exp          : BitVec 9
  cls          : RxClass
  wctr         : Nat
  tmo          : Bool
  pend         : Pend
  chan         : Channel
  env          : Env
deriving DecidableEq, Repr

/-- The outputs recorded before any cycle has run: all inactive (notes/assumptions/16.md). -/
def Outputs.quiet : Outputs :=
  { txValid := false, txData := 0x00#8, rxPop := false, rxFlush := false, dir := false, baud := 0#32, hRdata := 0x00#8 }

/-- The machine right after reset (70_reset_and_hazards.md R146): IDLE, every register at its reset value, `BAUD` at the
open parameter `BAUD_RESET`, no buffer byte written. The channel is empty and no input is scheduled
(notes/assumptions/2.md, 6.md). -/
def State.reset : State :=
  { lastCmd := 0x00#8, status := 0x00#8, unitId := 0x00#8, addr := 0x0000#16, val := 0x0000#16, txLen := 0x00#8
    rxFc := 0x00#8, rxPayloadOff := 0x00#8, rxPayloadLen := 0x00#8, crcCalc := 0x0000#16, crcRecv := 0x0000#16
    baud := Config.params.baudReset, dir := false, crcMatch := false
    mem := []
    st := .idle, op := 0x00#8, phase := .none, lat := 0, txi := 0x00#8, pos := 0#9, exp := 0#9, cls := .none
    wctr := 0, tmo := false, pend := .none
    chan := { fifo := [], unsent := [], sent := [] }
    env := { params := Config.params, host := [], inputs := [], cycle := 0, resets := 0, out := Outputs.quiet } }

end Sys2Proof.Machine
end

