-- ==== Sys2Proof/Machine/Flags.lean ====
section
/-! DEFINITION. The codes and flags: status codes (30_encoding.md R66), class codes (10_state.md R27), the FLAGS register
(R19, 40_dispatch.md R75), the class a function code selects (R63, R107), the status of a CRC-valid frame
(44_reassembly.md R115) and the payload window (R114). -/

namespace Sys2Proof.Machine

/-- The numeric status codes (R66). -/
def statusCode : Status → Byte
  | .none => 0x00#8
  | .done => 0x01#8
  | .commandError => 0x02#8
  | .noResponse => 0x10#8
  | .responseTooShort => 0x11#8
  | .invalidFrame => 0x12#8
  | .slaveError => 0x13#8
  | .writeSingleRegisterSuccess => 0x14#8
  | .writeDataRegisterSuccess => 0x15#8
  | .readDataRegisterSuccess => 0x16#8
  | .notHandledRegister => 0x17#8

/-- The numeric class codes of `RX_CLASS` (R27). -/
def classCode : RxClass → Byte
  | .none => 0x00#8
  | .read => 0x01#8
  | .wack => 0x02#8
  | .err => 0x03#8

/-- `FLAGS.BUSY` (R75): a command is running. -/
def State.busy (s : State) : Bool := decide (s.st ≠ .idle)

/-- The FLAGS register as the host reads it (R19): BUSY, DIR, CRC_MATCH in bits 0 to 2, zeros above. -/
def State.flags (s : State) : Byte :=
  (if s.busy then 0x01#8 else 0x00#8) ||| (if s.dir then 0x02#8 else 0x00#8)
    ||| (if s.crcMatch then 0x04#8 else 0x00#8)

/-- The class selected by the byte at position 1, first match wins (R63, R107). -/
def classOf (fc : Byte) : RxClass :=
  if fc = fcRead then .read
  else if fc = fcWriteSingle ∨ fc = fcWriteMulti then .wack
  else .err

/-- The expected length as position 1 leaves it (R107): unchanged for READ, 8 for WACK, FLOOR + 1 for ERR. -/
def expOf (old : BitVec 9) (fc : Byte) : BitVec 9 :=
  match classOf fc with
  | .none => old
  | .read => old
  | .wack => BitVec.ofNat 9 wackLen
  | .err => BitVec.ofNat 9 (floorLen + 1)

/-- The status of a CRC-valid frame, by the echoed function code (R115). -/
def statusOf (fc : Byte) : Status :=
  if fc = fcRead then .readDataRegisterSuccess
  else if fc = fcWriteSingle then .writeSingleRegisterSuccess
  else if fc = fcWriteMulti then .writeDataRegisterSuccess
  else .slaveError

/-- `payload_of(cls, n)`: offset and length of the payload (R114). No response without a class is complete, and such a
one has no payload (notes/assumptions/11.md). -/
def payloadOf (cls : RxClass) (n : Nat) : Byte × Byte :=
  match cls with
  | .none => (0x00#8, 0x00#8)
  | .read => (0x03#8, len8 (n - 5))
  | .wack => (0x02#8, 0x04#8)
  | .err => (0x02#8, len8 (n - 4))

end Sys2Proof.Machine
end

