-- ==== Sys2Proof/Machine/Ops.lean ====
section
/-! DEFINITION. The named operations over memory, the channel and the control state that every meaning is built from:
buffer reads and writes (10_state.md R29, R30), the channel primitives (00_scope.md R11, 60_exceptions.md R127), the
latency draw (40_dispatch.md R71), acceptance (R68), `finish` (R74), which is this block's only form of raising an
outcome (60_exceptions.md R129, R132), and the reset edge (70_reset_and_hazards.md R146). -/

namespace Sys2Proof.Machine

/-! ### Memory -/

/-- Host address of `TX_BUF[0]` (R16). -/
def txBase : Nat := 0x100

/-- Host address of `RX_FRAME[0]` (R16). -/
def rxBase : Nat := 0x200

/-- The host addresses that have storage in memory: `TX_BUF[0..254]` and `RX_FRAME[0..259]` (R29, R30, R47). -/
def bufferAddr (a : Nat) : Bool :=
  (decide (txBase ≤ a) && decide (a < txBase + txBufSize)) || (decide (rxBase ≤ a) && decide (a < rxBase + rxBufSize))

/-- The byte listed for an address, if any. -/
def Memory.get? : Memory → Nat → Option Byte
  | [], _ => none
  | c :: m, a => if c.1 = a then some c.2 else Memory.get? m a

/-- Memory with `v` listed for `a`, addresses kept rising. -/
def Memory.put : Memory → Nat → Byte → Memory
  | [], a, v => [(a, v)]
  | c :: m, a, v =>
    if a < c.1 then (a, v) :: c :: m
    else if a = c.1 then (a, v) :: m
    else c :: Memory.put m a v

/-- The canonical form: addresses strictly rising, each in one of the two buffers. -/
def Memory.wf (m : Memory) : Bool :=
  decide (m.Pairwise fun c d => c.1 < d.1) && m.all fun c => bufferAddr c.1

/-- The byte a buffer address holds: the byte written there since the last reset, else the unspecified contents that
reset left (R29, R30, R146). -/
def State.byteAt (s : State) (a : Nat) : Byte :=
  match s.mem.get? a with
  | some v => v
  | none => Config.unwrittenByte s.env.resets a

/-- `TX_BUF[i]` (R10). -/
def State.txByte (s : State) (i : Nat) : Byte := s.byteAt (txBase + i)

/-- `RX_FRAME[i]` (R10). -/
def State.rxByte (s : State) (i : Nat) : Byte := s.byteAt (rxBase + i)

/-- `TX_BUF[i .. i+n-1]` (R10). -/
def State.txBytes (s : State) (i n : Nat) : List Byte := (List.range n).map fun k => s.txByte (i + k)

/-- `RX_FRAME[i .. i+n-1]` (R10). -/
def State.rxBytes (s : State) (i n : Nat) : List Byte := (List.range n).map fun k => s.rxByte (i + k)

/-- Memory after a write of `v` at `a`. An address without storage keeps nothing. -/
def Memory.store (m : Memory) (a : Nat) (v : Byte) : Memory := if bufferAddr a then m.put a v else m

/-- Memory after a byte sequence is written to consecutive addresses. -/
def Memory.storeAll (m : Memory) (a : Nat) : List Byte → Memory
  | [] => m
  | v :: vs => (m.store a v).storeAll (a + 1) vs

/-- Write one buffer byte. -/
def State.writeByte (s : State) (a : Nat) (v : Byte) : State := { s with mem := s.mem.store a v }

/-- Write a byte sequence to consecutive addresses. -/
def State.writeBytes (s : State) (a : Nat) (bs : List Byte) : State := { s with mem := s.mem.storeAll a bs }

/-- `TX_BUF[i ..] <- bs`. -/
def State.writeTx (s : State) (i : Nat) (bs : List Byte) : State := s.writeBytes (txBase + i) bs

/-- `RX_FRAME[i] <- v`. -/
def State.writeRx (s : State) (i : Nat) (v : Byte) : State := s.writeByte (rxBase + i) v

/-- Stamp a CRC into `TX_BUF[len-2]` and `TX_BUF[len-1]`, low byte first (R41, R82). -/
def State.stampTx (s : State) (len : Nat) (c : Word) : State := s.writeTx (len - 2) (crcTail c)

/-! ### The channel and the inputs of the cycle -/

/-- The inputs of the current cycle: the scheduled ones, else free ones. -/
def State.input (s : State) : CycleInput := s.env.inputs.headD (Config.freeInput s.env.cycle)

/-- `draw_lat()` (R71): the STAGE_LAT draw of this cycle, at least 1. -/
def State.drawLat (s : State) : Nat := s.input.extraLat + 1

/-- `TIMEOUT` (R8, R103). -/
def State.timeout (s : State) : Nat := s.env.params.pollTries * s.env.params.pollDelay

/-- `tx_empty` (R127 duty (b)): every taken byte has left the line. -/
def State.txEmpty (s : State) : Bool := s.chan.unsent.isEmpty

/-- `ch_flush()` (R11, R127 duty (e)): the receive FIFO is discarded, this cycle's arrivals with it. -/
def State.flushFifo (s : State) : State := { s with chan := { s.chan with fifo := [] } }

/-- `ch_pop()` in an RX cycle (R11, R122, R127 duty (d)): the head byte is removed, and the wait for the next byte
begins (R104). -/
def State.popFifo (s : State) : State := { s with chan := { s.chan with fifo := s.chan.fifo.tail }, wctr := 0 }

/-- The channel takes one byte (R127 duty (a)). -/
def State.handOver (s : State) (b : Byte) : State :=
  { s with chan := { s.chan with unsent := s.chan.unsent ++ [b] } }

/-! ### Control -/

/-- Acceptance of command `v` (R68), with its first phase of R69. -/
def State.accept (s : State) (v : Byte) (ph : Phase) (pd : Pend) : State :=
  { s with lastCmd := v, op := v, phase := ph, pend := pd, lat := s.drawLat, st := .stage }

/-- `finish(r)` (R74, R132): the one place that writes `STATUS` and ends a command. -/
def State.finish (s : State) (r : Status) : State :=
  { s with status := statusCode r, st := .idle, phase := .none, pend := .none, lat := 0 }

/-- The reset edge (R146): every register and all hidden state at the reset value, the buffers unspecified again, the
channel and its FIFO untouched. -/
def State.resetEdge (s : State) : State :=
  { State.reset with
    baud := s.env.params.baudReset
    chan := s.chan
    env := { s.env with resets := s.env.resets + 1 } }

end Sys2Proof.Machine
end

