-- ==== Sys2Proof/Machine/Operands.lean ====
section
/-! DEFINITION. Every way a location or an operand is read or written: the host port (20_memory.md R37 to R39, R43,
R47), the host program notation (30_encoding.md R67), the operand frames in the two buffers, the operand checks
(40_dispatch.md R72), and the phase table of acceptance (R69). -/

namespace Sys2Proof.Machine

/-! ### The host address map (R16) -/

def addrCmd : BitVec 11 := 0x000#11
def addrStatus : BitVec 11 := 0x001#11
def addrFlags : BitVec 11 := 0x002#11
def addrUnitId : BitVec 11 := 0x003#11
def addrAddrHi : BitVec 11 := 0x004#11
def addrAddrLo : BitVec 11 := 0x005#11
def addrValHi : BitVec 11 := 0x006#11
def addrValLo : BitVec 11 := 0x007#11
def addrTxLen : BitVec 11 := 0x008#11

/-- First host address of `RX_PAYLOAD` (R31). -/
def payloadBase : Nat := 0x400

/-- One past the last host address of `RX_PAYLOAD` (R31). -/
def payloadEnd : Nat := 0x4FF

/-- The platform address of a host location (R47): no rule of the block reads it. -/
def State.platformAddress (s : State) (a : BitVec 11) : Nat := s.env.params.base + a.toNat

/-- `HostRead` of the registers 0x000 to 0x017 (R16, R38): reserved 0x013 reads 0x00. -/
def State.regRead (s : State) : Nat → Byte
  | 0x000 => s.lastCmd
  | 0x001 => s.status
  | 0x002 => s.flags
  | 0x003 => s.unitId
  | 0x004 => hi8 s.addr
  | 0x005 => lo8 s.addr
  | 0x006 => hi8 s.val
  | 0x007 => lo8 s.val
  | 0x008 => s.txLen
  | 0x009 => s.rxFc
  | 0x00A => hi8 (s.pos.setWidth 16)
  | 0x00B => lo8 (s.pos.setWidth 16)
  | 0x00C => s.rxPayloadOff
  | 0x00D => s.rxPayloadLen
  | 0x00E => hi8 s.crcCalc
  | 0x00F => lo8 s.crcCalc
  | 0x010 => hi8 s.crcRecv
  | 0x011 => lo8 s.crcRecv
  | 0x012 => classCode s.cls
  | 0x014 => byteOf32 s.baud 3
  | 0x015 => byteOf32 s.baud 2
  | 0x016 => byteOf32 s.baud 1
  | 0x017 => byteOf32 s.baud 0
  | _ => 0x00#8

/-- `HostRead(a)` (R38): a register, a buffer byte, the payload window evaluated at the time of the read (R31), or 0x00
for a reserved address. -/
def State.hostRead (s : State) (a : BitVec 11) : Byte :=
  if bufferAddr a.toNat then s.byteAt a.toNat
  else if payloadBase ≤ a.toNat ∧ a.toNat < payloadEnd then
    s.rxByte (s.rxPayloadOff.toNat + (a.toNat - payloadBase))
  else s.regRead a.toNat

/-- The first phase of each opcode, and whether an exchange is pending behind it (R69). -/
def firstPhase (v : Byte) : Phase × Pend :=
  if v = 0x01#8 then (.crcGen, .none)
  else if v = 0x02#8 then (.crcChk, .none)
  else if v = 0x10#8 then (.bRead, .none)
  else if v = 0x11#8 then (.bWSingle, .none)
  else if v = 0x12#8 then (.bWMulti, .none)
  else if v = 0x20#8 then (.xStart, .none)
  else if v = 0x30#8 then (.bRead, .exchange)
  else if v = 0x31#8 then (.bWSingle, .exchange)
  else if v = 0x32#8 then (.bWMulti, .exchange)
  else if v = 0x40#8 then (.flush, .none)
  else (.badOp, .none)

/-- A command issue (R17, R68) through the phase table. -/
def State.issue (s : State) (v : Byte) : State := s.accept v (firstPhase v).1 (firstPhase v).2

/-- `HostWrite` to the registers 0x000 to 0x017: only the `RW` ones and `CMD` take it (R16, R39). -/
def State.regWrite (s : State) (a : Nat) (v : Byte) : State :=
  match a with
  | 0x000 => s.issue v
  | 0x003 => { s with unitId := v }
  | 0x004 => { s with addr := join v (lo8 s.addr) }
  | 0x005 => { s with addr := join (hi8 s.addr) v }
  | 0x006 => { s with val := join v (lo8 s.val) }
  | 0x007 => { s with val := join (hi8 s.val) v }
  | 0x008 => { s with txLen := v }
  | 0x014 => { s with baud := setByte32 s.baud 3 v }
  | 0x015 => { s with baud := setByte32 s.baud 2 v }
  | 0x016 => { s with baud := setByte32 s.baud 1 v }
  | 0x017 => { s with baud := setByte32 s.baud 0 v }
  | _ => s

/-- The address is in `TX_BUF`, the one buffer the host may write (R29, R39). -/
def txAddr (a : Nat) : Bool := decide (txBase ≤ a) && decide (a < txBase + txBufSize)

/-- `HostWrite(a, v)` (R34, R39): nothing while busy; otherwise a command, a register, a `TX_BUF` byte, or nothing. -/
def State.hostWrite (s : State) (a : BitVec 11) (v : Byte) : State :=
  if s.busy then s
  else if txAddr a.toNat then s.writeByte a.toNat v
  else s.regWrite a.toNat v

/-! ### The host program notation (R67) -/

/-- `wr A, V`. -/
def hostWr (a : BitVec 11) (v : Byte) : HostOp := .bus { addr := a, wdata := v, we := true, re := false }

/-- `rd A`. DESIGN CHOICE, safe: R67 gives no `h_wdata` for it; 0x00, which nothing reads (notes/assumptions/18.md). -/
def hostRd (a : BitVec 11) : HostOp := .bus { addr := a, wdata := 0x00#8, we := false, re := true }

/-- `idle`. DESIGN CHOICE: R67 gives `h_we = h_re = 0` only; `h_addr` 0x000 and `h_wdata` 0x00 are the model's. Safe for the
block, which reads neither; unsafe for a statement about the `h_rdata` recorded in such a cycle, which is then `LAST_CMD`
(notes/assumptions/18.md). -/
def hostIdle : HostOp := .bus { addr := 0x000#11, wdata := 0x00#8, we := false, re := false }

/-- `cmd M`, for the opcode of M: a write to `CMD`. -/
def hostCmd (v : Byte) : HostOp := hostWr addrCmd v

/-- `wr16 A, V`: the high byte at A, then the low byte at A+1. -/
def hostWr16 (a : BitVec 11) (v : Word) : List HostOp := [hostWr a (hi8 v), hostWr (a + 1) (lo8 v)]

/-- The bus cycle an operation drives: `wait` reads FLAGS. DESIGN CHOICE, safe: its `h_wdata` is 0x00, which nothing reads
(notes/assumptions/18.md). -/
def busCycleOf : HostOp → BusCycle
  | .bus c => c
  | .wait => { addr := addrFlags, wdata := 0x00#8, we := false, re := true }

/-- The host access of the current cycle: the host program's, else a free one. -/
def State.bus (s : State) : BusCycle :=
  match s.env.host with
  | op :: _ => busCycleOf op
  | [] => Config.freeBus s.env.cycle

/-- The host program after this cycle: `wait` repeats while the FLAGS value read has bit 0 set. -/
def State.hostRest (s : State) : List HostOp :=
  match s.env.host with
  | .wait :: rest => if (s.hostRead addrFlags).getLsbD 0 then .wait :: rest else rest
  | _ :: rest => rest
  | [] => []

/-! ### Operands of the phases -/

/-- `TX_LEN` as a length. -/
def State.txCount (s : State) : Nat := s.txLen.toNat

/-- The operand check of PH_CRCGEN, PH_CRCCHK and PH_XSTART (R72). -/
def State.txLenOk (s : State) : Bool := decide (2 ≤ s.txCount)

/-- The frame in `TX_BUF`, `TX_BUF[0 .. TX_LEN-1]` (R22). -/
def State.txFrame (s : State) : List Byte := s.txBytes 0 s.txCount

/-- The response frame, `RX_FRAME[0 .. n-1]` with `n = pos` (R24). -/
def State.rxFrame (s : State) : List Byte := s.rxBytes 0 s.pos.toNat

end Sys2Proof.Machine
end

