-- ==== Sys2Proof/Machine/CrcEngine.lean ====
section
/-! DEFINITION. The actions of the CRC engine: PH_CRCGEN (41_crc.md R86) and PH_CRCCHK (R87). -/

namespace Sys2Proof.Machine

/-- `action(PH_CRCGEN)` (R86): stamp the CRC of `TX_BUF[0 .. TX_LEN-3]`. -/
def State.actCrcGen (s : State) : State :=
  if s.txLenOk then
    let c := crcBody s.txFrame
    ({ s.stampTx s.txCount c with crcCalc := c }).finish .done
  else s.finish .commandError

/-- `action(PH_CRCCHK)` (R87): compare the CRC of `TX_BUF[0 .. TX_LEN-3]` with the frame's last two bytes. -/
def State.actCrcCheck (s : State) : State :=
  if s.txLenOk then
    let c := crcBody s.txFrame
    let r := crcField s.txFrame
    ({ s with crcCalc := c, crcRecv := r, crcMatch := decide (r = c) }).finish
      (if r = c then .done else .invalidFrame)
  else s.finish .commandError

end Sys2Proof.Machine
end

