-- ==== Sys2Proof/Machine/Exchange.lean ====
section
/-! DEFINITION. The transmit side of an exchange (43_exchange.md): PH_XSTART (R92, R93), a TX cycle (R94), a DRAIN cycle
(R95), and the action of FLUSH_RX (R101). -/

namespace Sys2Proof.Machine

/-- The result registers and the receive state as PH_XSTART leaves them (R92). -/
def State.clearResult (s : State) : State :=
  { s with
    rxFc := 0x00#8, pos := 0#9, rxPayloadOff := 0x00#8, rxPayloadLen := 0x00#8
    crcCalc := 0x0000#16, crcRecv := 0x0000#16, crcMatch := false
    cls := .none, exp := BitVec.ofNat 9 floorLen, tmo := false, wctr := 0, txi := 0x00#8 }

/-- `action(PH_XSTART)` (R92): check, stamp, clear, flush, turn the line to transmit. -/
def State.actXStart (s : State) : State :=
  if s.txLenOk then
    let s1 := (s.stampTx s.txCount (crcBody s.txFrame)).clearResult.flushFifo
    { s1 with dir := true, st := .tx }
  else s.finish .commandError

/-- One TX cycle that offers `frame[txi]` (R94): nothing changes until the channel takes the byte. -/
def State.sendCycle (s : State) (frame : List Byte) (b : Byte) : State :=
  if s.input.txReady then
    if s.txi.toNat + 1 = frame.length then { s.handOver b with st := .drain }
    else { s.handOver b with txi := s.txi + 1 }
  else s

/-- One TX cycle of the frame in `TX_BUF` (R94). -/
def State.txCycle (s : State) : State := s.sendCycle s.txFrame (s.txByte s.txi.toNat)

/-- One DRAIN cycle (R95): when everything has left the line, flush and switch to receive at the same edge. -/
def State.drainCycle (s : State) : State :=
  if s.txEmpty then { s.flushFifo with dir := false, wctr := 0, st := .rx } else s

/-- `action(PH_FLUSH)` (R101). -/
def State.actFlush (s : State) : State := s.flushFifo.finish .done

end Sys2Proof.Machine
end

