-- ==== Sys2Proof/Machine/Reassembly.lean ====
section
/-! DEFINITION. The receive side of an exchange (44_reassembly.md): accepting one byte (R105 to R109), an RX cycle
(R122), the classification of the outcome (R110 to R115), and a CHECK cycle (R123). -/

namespace Sys2Proof.Machine

/-- The byte at position 0 is not the unit id: it is discarded (R105). -/
def State.discards (s : State) (b : Byte) : Bool := decide (s.pos = 0#9) && decide (b ≠ s.unitId)

/-- The expected length after byte `b` is accepted at the current position (R107, R108, R109). -/
def State.expAfter (s : State) (b : Byte) : BitVec 9 :=
  if s.pos = 1#9 then expOf s.exp b
  else if s.pos = 2#9 ∧ s.cls = .read then b.setWidth 9 + BitVec.ofNat 9 floorLen
  else s.exp

/-- The class after byte `b` is accepted at the current position (R107). -/
def State.clsAfter (s : State) (b : Byte) : RxClass := if s.pos = 1#9 then classOf b else s.cls

/-- `RX_FC` after byte `b` is accepted at the current position (R107). -/
def State.rxFcAfter (s : State) (b : Byte) : Byte := if s.pos = 1#9 then b else s.rxFc

/-- Byte `b` is stored at the current position, which advances; the function code and the byte count are read on the
way (R106, R107, R108). -/
def State.storeByte (s : State) (b : Byte) : State :=
  { s.writeRx s.pos.toNat b with
    rxFc := s.rxFcAfter b, cls := s.clsAfter b, exp := s.expAfter b, pos := s.pos + 1 }

/-- What the receive loop does with one byte (R102, R105, R106): discard it, or store it. -/
def State.takeByte (s : State) (b : Byte) : State := if s.discards b then s else s.storeByte b

/-- Entering CHECK from RX (R122). -/
def State.enterCheck (s : State) : State := { s with st := .check, lat := s.drawLat }

/-- One RX cycle (R122): take the FIFO's head byte, or time out, or count the cycle. -/
def State.rxCycle (s : State) : State :=
  match s.chan.fifo with
  | b :: _ =>
    if s.discards b then s.popFifo
    else if s.pos + 1 = s.expAfter b then (s.popFifo.storeByte b).enterCheck
    else s.popFifo.storeByte b
  | [] =>
    if s.wctr = s.timeout then { s with tmo := true }.enterCheck
    else { s with wctr := s.wctr + 1 }

/-- The receive loop ended by a timeout before the frame was complete, and the frame is not the short error form
(R110, R111, C2). -/
def State.truncated (s : State) : Bool :=
  s.tmo && !(decide (s.cls = .err) && decide (s.pos.toNat = floorLen))

/-- The classification of a complete frame (R110, R113 to R115): the payload window, the CRC registers and the status. -/
def State.judge (s : State) (cls : RxClass) (fc : Byte) (frame : List Byte) : State :=
  let c := crcBody frame
  let r := crcField frame
  ({ s with
      rxPayloadOff := (payloadOf cls frame.length).1
      rxPayloadLen := (payloadOf cls frame.length).2
      crcCalc := c
      crcRecv := r
      crcMatch := decide (r = c) }).finish (if r = c then statusOf fc else .invalidFrame)

/-- `check()` (R110). -/
def State.checkAction (s : State) : State :=
  if s.pos = 0#9 then s.finish .noResponse
  else if s.truncated then s.finish .responseTooShort
  else s.judge s.cls s.rxFc s.rxFrame

/-- One CHECK cycle (R123): count the latency down, then run the action. -/
def State.countCheck (s : State) (action : State) : State := if 1 < s.lat then { s with lat := s.lat - 1 } else action

/-- One CHECK cycle of the response in `RX_FRAME` (R123). -/
def State.checkCycle (s : State) : State := s.countCheck s.checkAction

end Sys2Proof.Machine
end

