-- ==== Sys2Proof/Machine/Serializer.lean ====
section
/-! DEFINITION. The actions of the serializer: PH_BREAD (42_serializer.md R88), PH_BWSINGLE (R89), PH_BWMULTI (R90), and
what a completed build phase does next (40_dispatch.md R69). -/

namespace Sys2Proof.Machine

/-- The end of a build phase (R69): go on to PH_XSTART when an exchange is pending, else `finish(done)`. -/
def State.buildEnd (s : State) : State :=
  match s.pend with
  | .exchange => { s with phase := .xStart, pend := .none, lat := s.drawLat }
  | .none => s.finish .done

/-- What a build phase leaves: the buffers, `TX_LEN` and `CRC_CALC` (R88, R89, R90). -/
def State.built (s : State) (mem : Memory) (len : Byte) (crc : Word) : State :=
  { s with mem := mem, txLen := len, crcCalc := crc }

/-- `action(PH_BREAD)` (R88). -/
def State.actBuildRead (s : State) : State :=
  let body := reqHeader s.unitId fcRead s.addr s.val
  (s.built (s.writeTx 0 (stamped body)).mem 0x08#8 (crc16 body)).buildEnd

/-- `action(PH_BWSINGLE)` (R89). -/
def State.actBuildWriteSingle (s : State) : State :=
  let body := reqHeader s.unitId fcWriteSingle s.addr s.val
  (s.built (s.writeTx 0 (stamped body)).mem 0x08#8 (crc16 body)).buildEnd

/-- The data bytes the host has placed for a write-multiple request: `TX_BUF[7 .. 6+2N]` (R90). -/
def State.multiData (s : State) : List Byte := s.txBytes 7 (2 * s.val.toNat)

/-- The bytes a write-multiple build writes: bytes 0 to 6, and the CRC `c` behind the data (R90). -/
def State.multiWritten (s : State) (c : Word) : State :=
  (s.writeTx 0 (reqHeader s.unitId fcWriteMulti s.addr s.val ++ [byteCount s.val])).writeTx (7 + 2 * s.val.toNat)
    (crcTail c)

/-- `action(PH_BWMULTI)` (R90): the header and the CRC are written around the host's data, which is only read. -/
def State.actBuildWriteMulti (s : State) : State :=
  let n := s.val.toNat
  if maxCount < n then s.finish .commandError
  else
    let c := crc16 (multiBody s.unitId s.addr s.val s.multiData)
    (s.built (s.multiWritten c).mem (len8 (9 + 2 * n)) c).buildEnd

end Sys2Proof.Machine
end

