-- ==== Sys2Proof/Machine/Cycle.lean ====
section
/-! DEFINITION. One clock cycle of a running command (40_dispatch.md R70, 44_reassembly.md R120, R125), the life of a
command from its acceptance on (40_dispatch.md R68), and the outputs of a cycle (44_reassembly.md R121). -/

namespace Sys2Proof.Machine

/-- `action(PH_BADOP)` (R73). -/
def State.actBadOp (s : State) : State := s.finish .commandError

/-- The action of a phase (R70). PH_NONE has none (notes/assumptions/11.md). -/
def State.action (s : State) : State :=
  match s.phase with
  | .none => s
  | .crcGen => s.actCrcGen
  | .crcChk => s.actCrcCheck
  | .bRead => s.actBuildRead
  | .bWSingle => s.actBuildWriteSingle
  | .bWMulti => s.actBuildWriteMulti
  | .xStart => s.actXStart
  | .flush => s.actFlush
  | .badOp => s.actBadOp

/-- One STAGE cycle (R70): count the latency down, then run the phase's action. -/
def State.stageCycle (s : State) : State := if 1 < s.lat then { s with lat := s.lat - 1 } else s.action

/-- One cycle of the block by its control state (R120, R125). An idle block does nothing of itself (R124). -/
def State.blockCycle (s : State) : State :=
  match s.st with
  | .idle => s
  | .stage => s.stageCycle
  | .tx => s.txCycle
  | .drain => s.drainCycle
  | .rx => s.rxCycle
  | .check => s.checkCycle

/-- One cycle of command `v`: an idle block accepts it (R68) with its first phase (R69); a busy block is running it and
does its next cycle. -/
def State.command (s : State) (v : Byte) (ph : Phase) (pd : Pend) : State :=
  match s.st with
  | .idle => s.accept v ph pd
  | _ => s.blockCycle

/-- The block asserts `rx_flush` in this cycle (R121). -/
def State.flushing (s : State) : Bool :=
  match s.st with
  | .stage =>
    decide (s.lat ≤ 1) && ((decide (s.phase = .xStart) && s.txLenOk) || decide (s.phase = .flush))
  | .drain => s.txEmpty
  | _ => false

/-- The outputs of a cycle (R121); in a reset cycle the four of R145 are inactive, whatever the state. -/
def State.outputs (s : State) : Outputs :=
  { txValid := !s.input.rst && decide (s.st = .tx)
    txData  := if s.st = .tx then s.txByte s.txi.toNat else 0x00#8
    rxPop   := !s.input.rst && (decide (s.st = .rx) && !s.chan.fifo.isEmpty)
    rxFlush := !s.input.rst && s.flushing
    dir     := !s.input.rst && s.dir
    baud    := s.baud
    hRdata  := s.hostRead s.bus.addr }

end Sys2Proof.Machine
end

