-- ==== Sys2Proof/Machine/Commands.lean ====
section
/-! DEFINITION. The meanings of the CMD rows of the opcode table, one definition each. A meaning is what the machine does
in one clock cycle in which the instruction is the current one: in IDLE it has just been written to `CMD` and is
accepted (40_dispatch.md R68, R69); otherwise it is running, and the cycle is the one its phase or control state gives
(R70, 44_reassembly.md R125). The effects of the phases are in CrcEngine, Serializer, Exchange and Reassembly. -/

namespace Sys2Proof.Machine

/-- CRC_GEN (0x01), R86: PH_CRCGEN, then `finish`. -/
def execCrcGen (s : State) : Host.Outcome State Fault Refusal := .next (s.command 0x01#8 .crcGen .none)

/-- CRC_CHECK (0x02), R87: PH_CRCCHK, then `finish`. -/
def execCrcCheck (s : State) : Host.Outcome State Fault Refusal := .next (s.command 0x02#8 .crcChk .none)

/-- BUILD_READ (0x10), R88: PH_BREAD, then `finish(done)`. -/
def execBuildRead (s : State) : Host.Outcome State Fault Refusal := .next (s.command 0x10#8 .bRead .none)

/-- BUILD_WRITE_SINGLE (0x11), R89: PH_BWSINGLE, then `finish(done)`. -/
def execBuildWriteSingle (s : State) : Host.Outcome State Fault Refusal := .next (s.command 0x11#8 .bWSingle .none)

/-- BUILD_WRITE_MULTI (0x12), R90: PH_BWMULTI, then `finish`. -/
def execBuildWriteMulti (s : State) : Host.Outcome State Fault Refusal := .next (s.command 0x12#8 .bWMulti .none)

/-- EXCHANGE (0x20), R91: PH_XSTART, TX, DRAIN, RX, CHECK. -/
def execExchange (s : State) : Host.Outcome State Fault Refusal := .next (s.command 0x20#8 .xStart .none)

/-- READ_REGS (0x30), R98: PH_BREAD with an exchange pending, then as EXCHANGE. -/
def execReadRegs (s : State) : Host.Outcome State Fault Refusal := .next (s.command 0x30#8 .bRead .exchange)

/-- WRITE_SINGLE (0x31), R99: PH_BWSINGLE with an exchange pending, then as EXCHANGE. -/
def execWriteSingle (s : State) : Host.Outcome State Fault Refusal := .next (s.command 0x31#8 .bWSingle .exchange)

/-- WRITE_MULTI (0x32), R100: PH_BWMULTI with an exchange pending, then as EXCHANGE. -/
def execWriteMulti (s : State) : Host.Outcome State Fault Refusal := .next (s.command 0x32#8 .bWMulti .exchange)

/-- FLUSH_RX (0x40), R101: PH_FLUSH, then `finish(done)`. -/
def execFlushRx (s : State) : Host.Outcome State Fault Refusal := .next (s.command 0x40#8 .flush .none)

/-- ILLEGAL, R73: accepted like any command, then PH_BADOP and `finish(commandError)`. -/
def execIllegal (v : Byte) (s : State) : Host.Outcome State Fault Refusal := .next (s.command v .badOp .none)

end Sys2Proof.Machine
end

