-- ==== Sys2Proof/Syntax.lean ====
section
/-! DEFINITION. The instructions: one constructor per row of spec/opcode_table.json. The CMD rows are the command words
the host writes to `CMD` (30_encoding.md R53 to R55); the WIRE_REQ and WIRE_RSP rows are the frames of the wire
protocol (R56 to R62), with every field of the frame as an operand. -/

namespace Sys2Proof

/-- One constructor per row of the opcode table, in the table's order. -/
inductive Instr where
  /-- CRC_GEN, 0x01 (R86). -/
  | crcGen
  /-- CRC_CHECK, 0x02 (R87). -/
  | crcCheck
  /-- BUILD_READ, 0x10 (R88). -/
  | buildRead
  /-- BUILD_WRITE_SINGLE, 0x11 (R89). -/
  | buildWriteSingle
  /-- BUILD_WRITE_MULTI, 0x12 (R90). -/
  | buildWriteMulti
  /-- EXCHANGE, 0x20 (R91). -/
  | exchange
  /-- READ_REGS, 0x30 (R98). -/
  | readRegs
  /-- WRITE_SINGLE, 0x31 (R99). -/
  | writeSingle
  /-- WRITE_MULTI, 0x32 (R100). -/
  | writeMulti
  /-- FLUSH_RX, 0x40 (R101). -/
  | flushRx
  /-- ILLEGAL: any of the 246 other command words (R55, R73). -/
  | illegal (opcode : Byte)
  /-- REQ_READ_HOLDING, function code 0x03 (R57). -/
  | reqReadHolding (unit : Byte) (addr count crc : Word)
  /-- REQ_WRITE_SINGLE, function code 0x06 (R58). -/
  | reqWriteSingle (unit : Byte) (addr value crc : Word)
  /-- REQ_WRITE_MULTI, function code 0x10 (R59). -/
  | reqWriteMulti (unit : Byte) (addr count : Word) (data : List Byte) (crc : Word)
  /-- RSP_READ, function code 0x03 (R60). -/
  | rspRead (unit : Byte) (data : List Byte) (crc : Word)
  /-- RSP_WRITE_SINGLE_ACK, function code 0x06 (R61). -/
  | rspWriteSingleAck (unit : Byte) (addr value crc : Word)
  /-- RSP_WRITE_MULTI_ACK, function code 0x10 (R61). -/
  | rspWriteMultiAck (unit : Byte) (addr count crc : Word)
  /-- RSP_ERROR, any other function code, with an error code of one or two bytes (R62). -/
  | rspError (unit function : Byte) (code : List Byte) (crc : Word)
deriving DecidableEq, Repr

end Sys2Proof
end

