-- ==== Sys2Proof/WellFormed.lean ====
section
/-! DEFINITION. Which instructions the encodings admit: an ILLEGAL opcode is none of the ten legal ones
(30_encoding.md R54, R55), a request carries the CRC and the lengths of R57 to R59, a response has a length that its
fields can state (R60 to R62). A response may carry a wrong CRC: the block then reports `invalidFrame` (R110). -/

namespace Sys2Proof

/-- The ten legal command words (R54). -/
def legalOpcodes : List Byte :=
  [0x01#8, 0x02#8, 0x10#8, 0x11#8, 0x12#8, 0x20#8, 0x30#8, 0x31#8, 0x32#8, 0x40#8]

/-- The word is one of the 246 illegal opcodes (R55). -/
def illegalOpcode (v : Byte) : Bool := !legalOpcodes.contains v

/-- The instruction is one that the encodings of 30_encoding.md admit. -/
def Instr.wf : Instr → Bool
  | .crcGen => true
  | .crcCheck => true
  | .buildRead => true
  | .buildWriteSingle => true
  | .buildWriteMulti => true
  | .exchange => true
  | .readRegs => true
  | .writeSingle => true
  | .writeMulti => true
  | .flushRx => true
  | .illegal v => illegalOpcode v
  | .reqReadHolding u a n k => decide (k = crc16 (reqHeader u fcRead a n))
  | .reqWriteSingle u a v k => decide (k = crc16 (reqHeader u fcWriteSingle a v))
  | .reqWriteMulti u a n d k =>
      decide (n.toNat ≤ maxCount ∧ d.length = 2 * n.toNat ∧ k = crc16 (multiBody u a n d))
  | .rspRead _ d _ => decide (d.length ≤ 255)
  | .rspWriteSingleAck _ _ _ _ => true
  | .rspWriteMultiAck _ _ _ _ => true
  | .rspError _ f c _ => !validFunction f && decide (c.length = 1 ∨ c.length = 2)

/-- Well-formedness as a proposition. -/
abbrev Instr.WellFormed (i : Instr) : Prop := i.wf = true

end Sys2Proof
end

