-- ==== Sys2Proof/Decode.lean ====
section
/-! DEFINITION. Decoding and encoding (30_encoding.md). The table has three formats, and the place a byte sequence comes
from says which one it is in: a host write to `CMD` (R53), the request in `TX_BUF` (R57 to R59), the response in
`RX_FRAME` (R60 to R63). `decode` is total on any bytes and rejects by name. The CRC of a frame is an operand; that it
fits is not the decoder's business (`Instr.wf`, R110). -/

namespace Sys2Proof

/-- The three formats of the opcode table. -/
inductive Format where
  | cmd
  | wireReq
  | wireRsp
deriving DecidableEq, Repr

/-- Why a byte sequence is no instruction of a format. -/
inductive DecodeError where
  /-- A command is exactly one byte (R53). -/
  | commandLength
  /-- A request does not have the length its function code gives it (R57 to R59). -/
  | requestLength
  /-- A request's function code is none of 0x03, 0x06, 0x10 (R65). -/
  | requestFunction
  /-- A write-multiple request's register count is above 123 (R59). -/
  | requestCount
  /-- A write-multiple request's byte count is not twice its register count (R59). -/
  | requestByteCount
  /-- A response does not have the length its function code and byte count give it (R60 to R64). -/
  | responseLength
deriving DecidableEq, Repr

/-- The command an opcode stands for, total on the 256 words (R54, R55). -/
def decodeCommand (v : Byte) : Instr :=
  if v = 0x01#8 then .crcGen
  else if v = 0x02#8 then .crcCheck
  else if v = 0x10#8 then .buildRead
  else if v = 0x11#8 then .buildWriteSingle
  else if v = 0x12#8 then .buildWriteMulti
  else if v = 0x20#8 then .exchange
  else if v = 0x30#8 then .readRegs
  else if v = 0x31#8 then .writeSingle
  else if v = 0x32#8 then .writeMulti
  else if v = 0x40#8 then .flushRx
  else .illegal v

/-- The request in a byte sequence (R57 to R59). -/
def decodeRequest : List Byte → Except DecodeError Instr
  | u :: fc :: rest =>
    if fc = fcRead then
      match rest with
      | [a1, a0, n1, n0, k0, k1] => .ok (.reqReadHolding u (join a1 a0) (join n1 n0) (join k1 k0))
      | _ => .error .requestLength
    else if fc = fcWriteSingle then
      match rest with
      | [a1, a0, v1, v0, k0, k1] => .ok (.reqWriteSingle u (join a1 a0) (join v1 v0) (join k1 k0))
      | _ => .error .requestLength
    else if fc = fcWriteMulti then
      match rest with
      | a1 :: a0 :: n1 :: n0 :: bc :: tail =>
        if maxCount < (join n1 n0).toNat then .error .requestCount
        else if bc ≠ byteCount (join n1 n0) then .error .requestByteCount
        else match tail.drop bc.toNat with
          | [k0, k1] => .ok (.reqWriteMulti u (join a1 a0) (join n1 n0) (tail.take bc.toNat) (join k1 k0))
          | _ => .error .requestLength
      | _ => .error .requestLength
    else .error .requestFunction
  | _ => .error .requestLength

/-- The response in a byte sequence, by function code in the priority order of R63. -/
def decodeResponse : List Byte → Except DecodeError Instr
  | u :: fc :: rest =>
    if fc = fcRead then
      match rest with
      | bc :: tail =>
        match tail.drop bc.toNat with
        | [k0, k1] => .ok (.rspRead u (tail.take bc.toNat) (join k1 k0))
        | _ => .error .responseLength
      | _ => .error .responseLength
    else if fc = fcWriteSingle then
      match rest with
      | [a1, a0, v1, v0, k0, k1] => .ok (.rspWriteSingleAck u (join a1 a0) (join v1 v0) (join k1 k0))
      | _ => .error .responseLength
    else if fc = fcWriteMulti then
      match rest with
      | [a1, a0, n1, n0, k0, k1] => .ok (.rspWriteMultiAck u (join a1 a0) (join n1 n0) (join k1 k0))
      | _ => .error .responseLength
    else
      match rest with
      | [c, k0, k1] => .ok (.rspError u fc [c] (join k1 k0))
      | [c0, c1, k0, k1] => .ok (.rspError u fc [c0, c1] (join k1 k0))
      | _ => .error .responseLength
  | _ => .error .responseLength

/-- The decoder: total on any bytes of any format. -/
def decode : Format → List Byte → Except DecodeError Instr
  | .cmd, [v] => .ok (decodeCommand v)
  | .cmd, _ => .error .commandLength
  | .wireReq, bs => decodeRequest bs
  | .wireRsp, bs => decodeResponse bs

/-- The format an instruction belongs to. -/
def Instr.format : Instr → Format
  | .crcGen => .cmd
  | .crcCheck => .cmd
  | .buildRead => .cmd
  | .buildWriteSingle => .cmd
  | .buildWriteMulti => .cmd
  | .exchange => .cmd
  | .readRegs => .cmd
  | .writeSingle => .cmd
  | .writeMulti => .cmd
  | .flushRx => .cmd
  | .illegal _ => .cmd
  | .reqReadHolding _ _ _ _ => .wireReq
  | .reqWriteSingle _ _ _ _ => .wireReq
  | .reqWriteMulti _ _ _ _ _ => .wireReq
  | .rspRead _ _ _ => .wireRsp
  | .rspWriteSingleAck _ _ _ _ => .wireRsp
  | .rspWriteMultiAck _ _ _ _ => .wireRsp
  | .rspError _ _ _ _ => .wireRsp

/-- The bytes of an instruction, in buffer index order, which is wire order (R54, R57 to R62). -/
def encode : Instr → List Byte
  | .crcGen => [0x01#8]
  | .crcCheck => [0x02#8]
  | .buildRead => [0x10#8]
  | .buildWriteSingle => [0x11#8]
  | .buildWriteMulti => [0x12#8]
  | .exchange => [0x20#8]
  | .readRegs => [0x30#8]
  | .writeSingle => [0x31#8]
  | .writeMulti => [0x32#8]
  | .flushRx => [0x40#8]
  | .illegal v => [v]
  | .reqReadHolding u a n k => reqHeader u fcRead a n ++ crcTail k
  | .reqWriteSingle u a v k => reqHeader u fcWriteSingle a v ++ crcTail k
  | .reqWriteMulti u a n d k => multiBody u a n d ++ crcTail k
  | .rspRead u d k => u :: fcRead :: len8 d.length :: (d ++ crcTail k)
  | .rspWriteSingleAck u a v k => reqHeader u fcWriteSingle a v ++ crcTail k
  | .rspWriteMultiAck u a n k => reqHeader u fcWriteMulti a n ++ crcTail k
  | .rspError u f c k => u :: f :: (c ++ crcTail k)

/-- How many bytes an instruction has: a command word one (R53), a request 8 or 9+2N (R57 to R59), a response bc+5, 8,
or 5 or 6 (R60 to R64). -/
def Instr.byteLength : Instr → Nat
  | .crcGen => 1
  | .crcCheck => 1
  | .buildRead => 1
  | .buildWriteSingle => 1
  | .buildWriteMulti => 1
  | .exchange => 1
  | .readRegs => 1
  | .writeSingle => 1
  | .writeMulti => 1
  | .flushRx => 1
  | .illegal _ => 1
  | .reqReadHolding _ _ _ _ => 8
  | .reqWriteSingle _ _ _ _ => 8
  | .reqWriteMulti _ _ n _ _ => 9 + 2 * n.toNat
  | .rspRead _ d _ => d.length + floorLen
  | .rspWriteSingleAck _ _ _ _ => wackLen
  | .rspWriteMultiAck _ _ _ _ => wackLen
  | .rspError _ _ c _ => c.length + 4

/-- The eight bytes of a fixed-length frame whose operands are all zero, with function code `fc` at index 1. -/
def zeroFrame (fc : Byte) : List Byte := [0#8, fc, 0#8, 0#8, 0#8, 0#8, 0#8, 0#8]

/-- The format and the bytes that a word of the opcode table stands for (notes/assumptions/9.md). A word of up to 8
bits is a command word; the exception is 0x03, which no command row but the lowest-priority ILLEGAL row admits and which
the RSP_READ row matches: the 5-byte read response of R60. A wider word is a fixed-length wire frame given by its
function code, the table's bits 7 to 0: 0x03 and 0x06 as the 8-byte requests of R57 and R58, anything else as the 8-byte
acknowledgement of R61. -/
def tableBytes (nbits w : Nat) : Format × List Byte :=
  let b : Byte := BitVec.ofNat 8 w
  if nbits ≤ 8 then
    if b = fcRead then (.wireRsp, [0#8, fcRead, 0#8, 0#8, 0#8]) else (.cmd, [b])
  else if b = fcRead ∨ b = fcWriteSingle then (.wireReq, zeroFrame b)
  else (.wireRsp, zeroFrame b)

/-- The instruction the decoder reads from a word numbered as the opcode table numbers it. -/
def decodeTableWord (nbits w : Nat) : Option Instr :=
  match decode (tableBytes nbits w).1 (tableBytes nbits w).2 with
  | .ok i => some i
  | .error _ => none

end Sys2Proof
end

