-- ==== Sys2Proof/Machine/Wire.lean ====
section
/-! DEFINITION. The meanings of the WIRE_REQ and WIRE_RSP rows of the opcode table, one definition each
(notes/assumptions/8.md). A request is the current instruction while the block transmits it: a TX cycle offers the
frame's byte at `txi` (43_exchange.md R94). A response is the current instruction when it is complete in `RX_FRAME`: its
CHECK cycle classifies it (44_reassembly.md R110 to R115). In a control state in which a frame is not the current
instruction it adds nothing to the block's own cycle. -/

namespace Sys2Proof.Machine

/-- One cycle in which the block transmits `frame`. -/
def State.requestCycle (s : State) (frame : List Byte) : State :=
  match s.st with
  | .tx => s.sendCycle frame (frame.getD s.txi.toNat (s.txByte s.txi.toNat))
  | _ => s.blockCycle

/-- One cycle in which the complete response `frame` of class `cls` and function code `fc` is classified. -/
def State.responseCycle (s : State) (cls : RxClass) (fc : Byte) (frame : List Byte) : State :=
  match s.st with
  | .check => s.countCheck (s.judge cls fc frame)
  | _ => s.blockCycle

/-- REQ_READ_HOLDING (R57): its eight bytes go out in index order. -/
def execReqReadHolding (u : Byte) (a n k : Word) (s : State) : Host.Outcome State Fault Refusal :=
  .next (s.requestCycle (encode (.reqReadHolding u a n k)))

/-- REQ_WRITE_SINGLE (R58): its eight bytes go out in index order. -/
def execReqWriteSingle (u : Byte) (a v k : Word) (s : State) : Host.Outcome State Fault Refusal :=
  .next (s.requestCycle (encode (.reqWriteSingle u a v k)))

/-- REQ_WRITE_MULTI (R59): its 9+2N bytes go out in index order. -/
def execReqWriteMulti (u : Byte) (a n : Word) (d : List Byte) (k : Word) (s : State) :
    Host.Outcome State Fault Refusal :=
  .next (s.requestCycle (encode (.reqWriteMulti u a n d k)))

/-- RSP_READ (R60): class READ; with a matching CRC the status is `readDataRegisterSuccess` and the payload is the
data. -/
def execRspRead (u : Byte) (d : List Byte) (k : Word) (s : State) : Host.Outcome State Fault Refusal :=
  .next (s.responseCycle .read fcRead (encode (.rspRead u d k)))

/-- RSP_WRITE_SINGLE_ACK (R61): class WACK; with a matching CRC the status is `writeSingleRegisterSuccess`; the echoed
fields are not compared with the request (R116). -/
def execRspWriteSingleAck (u : Byte) (a v k : Word) (s : State) : Host.Outcome State Fault Refusal :=
  .next (s.responseCycle .wack fcWriteSingle (encode (.rspWriteSingleAck u a v k)))

/-- RSP_WRITE_MULTI_ACK (R61): class WACK; with a matching CRC the status is `writeDataRegisterSuccess`; the echoed
fields are not compared with the request (R116). -/
def execRspWriteMultiAck (u : Byte) (a n k : Word) (s : State) : Host.Outcome State Fault Refusal :=
  .next (s.responseCycle .wack fcWriteMulti (encode (.rspWriteMultiAck u a n k)))

/-- RSP_ERROR (R62): class ERR, 5 or 6 bytes (R111, R112); with a matching CRC the status is `slaveError` and the
payload is the error code. -/
def execRspError (u f : Byte) (c : List Byte) (k : Word) (s : State) : Host.Outcome State Fault Refusal :=
  .next (s.responseCycle .err f (encode (.rspError u f c k)))

end Sys2Proof.Machine
end

