-- ==== Sys2Proof/Machine/Dispatch.lean ====
section
/-! DEFINITION. The one match from an instruction to its meaning. -/

namespace Sys2Proof.Machine

/-- What the machine does in a clock cycle whose current instruction is `i`. -/
def exec (i : Instr) (s : State) : Host.Outcome State Fault Refusal :=
  match i with
  | .crcGen => Sys2Proof.Machine.execCrcGen s
  | .crcCheck => Sys2Proof.Machine.execCrcCheck s
  | .buildRead => Sys2Proof.Machine.execBuildRead s
  | .buildWriteSingle => Sys2Proof.Machine.execBuildWriteSingle s
  | .buildWriteMulti => Sys2Proof.Machine.execBuildWriteMulti s
  | .exchange => Sys2Proof.Machine.execExchange s
  | .readRegs => Sys2Proof.Machine.execReadRegs s
  | .writeSingle => Sys2Proof.Machine.execWriteSingle s
  | .writeMulti => Sys2Proof.Machine.execWriteMulti s
  | .flushRx => Sys2Proof.Machine.execFlushRx s
  | .illegal v => Sys2Proof.Machine.execIllegal v s
  | .reqReadHolding u a n k => Sys2Proof.Machine.execReqReadHolding u a n k s
  | .reqWriteSingle u a v k => Sys2Proof.Machine.execReqWriteSingle u a v k s
  | .reqWriteMulti u a n d k => Sys2Proof.Machine.execReqWriteMulti u a n d k s
  | .rspRead u d k => Sys2Proof.Machine.execRspRead u d k s
  | .rspWriteSingleAck u a v k => Sys2Proof.Machine.execRspWriteSingleAck u a v k s
  | .rspWriteMultiAck u a n k => Sys2Proof.Machine.execRspWriteMultiAck u a n k s
  | .rspError u f c k => Sys2Proof.Machine.execRspError u f c k s

end Sys2Proof.Machine
end

