-- ==== Sys2Proof/Machine/Fetch.lean ====
section
/-! DEFINITION. What a clock cycle does around the current instruction: the channel's start of the cycle
(60_exceptions.md R127), which instruction is the current one, the host access of an idle cycle (20_memory.md R39), the
end of the cycle, and the placing of an instruction for the next step (notes/assumptions/8.md, 9.md, 10.md). -/

namespace Sys2Proof.Machine

/-- The channel at the start of a cycle: this cycle's arrivals become visible (R127 duty (f)), and the bytes the line
finishes up to this cycle leave it in the order taken (duties (a), (b)). -/
def State.beginCycle (s : State) : State :=
  { s with
    chan :=
      { fifo := s.chan.fifo ++ s.input.arrivals
        unsent := s.chan.unsent.drop s.input.left
        sent := s.chan.sent ++ s.chan.unsent.take s.input.left } }

/-- The request in `TX_BUF[0 .. TX_LEN-1]`, if it is one of R57 to R59 (a host may send any frame, R65). -/
def State.currentRequest (s : State) : Option Instr :=
  match decode .wireReq s.txFrame with
  | .ok i => some i
  | .error _ => none

/-- The complete response in `RX_FRAME[0 .. pos-1]` (R110, R113), if there is one: bytes were accepted, the loop did not
end by truncation, and the class and `RX_FC` are those of the frame. -/
def State.currentResponse (s : State) : Option Instr :=
  if s.pos = 0#9 ∨ s.truncated = true ∨ s.rxFrame[1]? ≠ some s.rxFc ∨ s.cls ≠ classOf s.rxFc then none
  else
    match decode .wireRsp s.rxFrame with
    | .ok i => some i
    | .error _ => none

/-- The instruction of this cycle: in IDLE the command the host writes, if it writes `CMD` (R68); in TX the request being
sent; in CHECK the response being classified; otherwise, and where the frame is none of the table's, the running
command. -/
def State.current (s : State) : Option Instr :=
  match s.st with
  | .idle => if s.bus.we = true ∧ s.bus.addr = addrCmd then some (decodeCommand s.bus.wdata) else none
  | .stage => some (decodeCommand s.op)
  | .tx => some (s.currentRequest.getD (decodeCommand s.op))
  | .drain => some (decodeCommand s.op)
  | .rx => some (decodeCommand s.op)
  | .check => some (s.currentResponse.getD (decodeCommand s.op))

/-- A cycle without a current instruction (R124): the host's write, if any, is all that happens. -/
def State.hostCycle (s : State) : State := if s.bus.we then s.hostWrite s.bus.addr s.bus.wdata else s

/-- The end of a cycle that was `held` while it lasted and whose edge made `s`: the outputs are recorded, the host's
program and the schedule advance. -/
def State.endCycle (held s : State) : State :=
  { s with
    env :=
      { s.env with
        host := held.hostRest
        inputs := s.env.inputs.tail
        cycle := s.env.cycle + 1
        out := held.outputs } }

/-- `endCycle` on an outcome. -/
def endOutcome (held : State) : Host.Outcome State Fault Refusal → Host.Outcome State Fault Refusal
  | .next s => .next (held.endCycle s)
  | .fault f => .fault f
  | .refused r => .refused r

/-- A cycle's inputs with nothing happening but what the block does itself: no reset, no arrival, a ready channel, the
reference latency 1 (R71). -/
def quietInput : CycleInput := { rst := false, txReady := true, left := 0, arrivals := [], extraLat := 0 }

/-- Place a command word: the host's next operation writes it to `CMD` of the idle block (R53, R68). -/
def State.placeCommand (s : State) (v : Byte) : State :=
  { s with st := .idle, env := { s.env with host := hostCmd v :: s.env.host, inputs := quietInput :: s.env.inputs } }

/-- Place a request frame: it stands in `TX_BUF` and the block begins to transmit it (R92, R94). -/
def State.placeRequest (s : State) (frame : List Byte) : State :=
  { s.writeTx 0 frame with
    txLen := len8 frame.length, txi := 0x00#8, op := 0x20#8, phase := .xStart, st := .tx, dir := true
    env := { s.env with inputs := quietInput :: s.env.inputs } }

/-- Place a response frame: it stands complete in `RX_FRAME` and the block is about to classify it (R106, R110). -/
def State.placeResponse (s : State) (frame : List Byte) : State :=
  { s.writeBytes rxBase frame with
    pos := BitVec.ofNat 9 frame.length, exp := BitVec.ofNat 9 frame.length
    rxFc := frame.getD 1 0x00#8, cls := classOf (frame.getD 1 0x00#8)
    tmo := false, op := 0x20#8, phase := .xStart, lat := 1, st := .check
    env := { s.env with inputs := quietInput :: s.env.inputs } }

/-- Place the instruction of a format and its bytes for the next step. -/
def State.place (s : State) : Format → List Byte → State
  | .cmd, bs => s.placeCommand (bs.getD 0 0x00#8)
  | .wireReq, bs => s.placeRequest bs
  | .wireRsp, bs => s.placeResponse bs

/-- One clock cycle (R120): the reset edge in a reset cycle (R145), else the current instruction's meaning `run`, else
the host access. -/
def State.cycleWith (run : Instr → State → Host.Outcome State Fault Refusal) (s : State) :
    Host.Outcome State Fault Refusal :=
  let held := s.beginCycle
  if held.input.rst then .next (held.endCycle held.resetEdge)
  else
    match held.current with
    | some i => endOutcome held (run i held)
    | none => .next (held.endCycle held.hostCycle)

end Sys2Proof.Machine
end

