-- ==== Sys2Proof/Machine/Step.lean ====
section
/-! DEFINITION. One step is one clock cycle (44_reassembly.md R120), and the placing of a table word for the next one. -/

namespace Sys2Proof.Machine

/-- One clock cycle of the machine. -/
def step (s : State) : Host.Outcome State Fault Refusal := s.cycleWith exec

/-- `s` with the instruction of a table word placed so that the next step runs exactly it (notes/assumptions/9.md,
10.md). -/
def State.withFetchWord (s : State) (nbits w : Nat) : State :=
  s.place (tableBytes nbits w).1 (tableBytes nbits w).2

end Sys2Proof.Machine
end

