-- ==== Sys2Proof/Machine/Transaction.lean ====
section
/-! DEFINITION. The transaction level of an exchange (43_exchange.md R91, 44_reassembly.md R102 to R104, R110), over a
timed byte stream: a list of pairs of a gap and a byte, where the gap is how many cycles of its own wait pass before the
byte is visible. The machine itself is the cycle level, which governs (00_scope.md R7); R126 says the two agree. -/

namespace Sys2Proof.Machine

/-- `wait_byte()` (R103): the byte, if it is visible no later than TIMEOUT cycles after its wait began; `none` is
`TIMEOUT_EVT`. -/
def waitByte (timeout : Nat) (g : Nat × Byte) : Option Byte := if g.1 ≤ timeout then some g.2 else none

/-- The receive loop (R102): every byte restarts the wait (R104); the end of the stream is silence. -/
def State.receive (s : State) : List (Nat × Byte) → State
  | [] => { s with tmo := true }
  | g :: rest =>
    match waitByte s.timeout g with
    | none => { s with tmo := true }
    | some b => if (s.takeByte b).pos = (s.takeByte b).exp then s.takeByte b else (s.takeByte b).receive rest

/-- The whole frame goes out and leaves the line, then the line turns round (R91, R94, R95). -/
def State.transmit (s : State) : State :=
  { s with
    chan := { fifo := [], unsent := [], sent := s.chan.sent ++ s.chan.unsent ++ s.txFrame }
    txi := s.txLen - 1, dir := false, wctr := 0, st := .rx }

/-- EXCHANGE from PH_XSTART on (R91). -/
def State.exchangeLevel (s : State) (stream : List (Nat × Byte)) : State :=
  if s.txLenOk then (s.actXStart.transmit.receive stream).checkAction else s.actXStart

/-- The bytes that arrive over a run of cycles, each with the cycle in which it is first visible (R127 duty (f)); the
run begins with cycle `k`, and several bytes may arrive in one cycle. -/
def deliveriesOf (k : Nat) : List (List Byte) → List (Nat × Byte)
  | [] => []
  | bs :: rest => bs.map (fun b => (k, b)) ++ deliveriesOf (k + 1) rest

/-- The timed byte stream of a delivery to a loop whose wait begins in cycle `start` (R103): a byte that is already
visible when its wait begins has gap 0, and the wait for the next byte begins in the cycle after this one is taken. -/
def gapsOf (start : Nat) : List (Nat × Byte) → List (Nat × Byte)
  | [] => []
  | g :: rest => (g.1 - start, g.2) :: gapsOf (max start g.1 + 1) rest

end Sys2Proof.Machine
end

