-- ==== Sys2Proof/Safety.lean ====
section
/-! DEFINITION. What a good state is: the invariants of the machine that the rules state of every run, and what a safe
outcome is. Every one holds at `State.reset` and every step is to keep their conjunction `State.Inv`. -/

namespace Sys2Proof.Machine

/-- A step that went on: the machine has no fault and no refused input (60_exceptions.md R134). -/
def isNext : Host.Outcome State Fault Refusal → Bool
  | .next _ => true
  | .fault _ => false
  | .refused _ => false

/-- `n` clock cycles of the machine, one `step` each (R120). -/
def runCycles : Nat → State → Host.Outcome State Fault Refusal
  | 0, s => .next s
  | n + 1, s =>
    match step s with
    | .next t => runCycles n t
    | .fault f => .fault f
    | .refused r => .refused r

/-- The four commands that run an exchange (60_exceptions.md R130). -/
def isExchangeCommand : Instr → Bool
  | .exchange => true
  | .readRegs => true
  | .writeSingle => true
  | .writeMulti => true
  | _ => false

/-- The host may write this location: an RW register or a `TX_BUF` byte (R16, R29), and not `CMD`. -/
def writableLocation (a : BitVec 11) : Bool :=
  (decide (0x003 ≤ a.toNat) && decide (a.toNat ≤ 0x008)) || (decide (0x014 ≤ a.toNat) && decide (a.toNat ≤ 0x017)) ||
    (decide (0x100 ≤ a.toNat) && decide (a.toNat ≤ 0x1FE))

/-- The codes the block ever writes to `STATUS`, with the reset value: not 0x17 (30_encoding.md R66, 60_exceptions.md
R130). -/
def writtenStatuses : List Byte :=
  [0x00#8, 0x01#8, 0x02#8, 0x10#8, 0x11#8, 0x12#8, 0x13#8, 0x14#8, 0x15#8, 0x16#8]

/-- `STATUS` holds a legal value (10_state.md R18). -/
def State.statusInv (s : State) : Prop := s.status ∈ writtenStatuses

/-- Memory is in canonical form. -/
def State.memInv (s : State) : Prop := s.mem.wf = true

/-- `DIR` is 1 exactly in TX and DRAIN (43_exchange.md R96). -/
def State.dirInv (s : State) : Prop := s.dir = true ↔ s.st = .tx ∨ s.st = .drain

/-- The phase bookkeeping of 40_dispatch.md R69, R70, R74: a stage has a phase and cycles left, an idle block has
neither, a pending exchange belongs to a build phase, and an exchange past PH_XSTART stays in that phase. -/
def State.phaseInv (s : State) : Prop :=
  match s.st with
  | .idle => s.phase = .none ∧ s.pend = .none ∧ s.lat = 0
  | .stage =>
    s.phase ≠ .none ∧ 1 ≤ s.lat ∧
      (s.pend = .exchange → s.phase = .bRead ∨ s.phase = .bWSingle ∨ s.phase = .bWMulti)
  | .check => s.phase = .xStart ∧ s.pend = .none ∧ 1 ≤ s.lat
  | _ => s.phase = .xStart ∧ s.pend = .none

/-- The transmit index stays inside the frame (43_exchange.md R94), whose length passed the check of R72. -/
def State.txInv (s : State) : Prop :=
  (s.st = .tx → 2 ≤ s.txCount ∧ s.txi.toNat < s.txCount) ∧
  (s.st = .drain → 2 ≤ s.txCount ∧ s.txi.toNat + 1 = s.txCount)

/-- The expected length that the class and the accepted bytes determine (44_reassembly.md R109). -/
def State.expectedLength (s : State) : Nat :=
  match s.cls with
  | .none => floorLen
  | .read => if s.pos.toNat ≤ 2 then floorLen else (s.rxByte 2).toNat + floorLen
  | .wack => wackLen
  | .err => floorLen + 1

/-- What is known of the response being received or classified (R105 to R109): the expected length, the class and
`RX_FC` are those of the accepted bytes, and the first of these is the unit id. -/
def State.responseInv (s : State) : Prop :=
  s.exp.toNat = s.expectedLength ∧
  (s.pos.toNat ≤ 1 → s.cls = .none ∧ s.rxFc = 0x00#8) ∧
  (1 ≤ s.pos.toNat → s.rxByte 0 = s.unitId) ∧
  (2 ≤ s.pos.toNat → s.rxFc = s.rxByte 1 ∧ s.cls = classOf s.rxFc)

/-- The receive loop (R102, R106, R109, R138): `pos < exp` at the top of every iteration, the counter within TIMEOUT, no
byte outside `RX_FRAME`; CHECK is entered with a full frame or after a timeout before one. -/
def State.rxInv (s : State) : Prop :=
  s.pos.toNat ≤ rxBufSize ∧
  match s.st with
  | .tx => s.pos = 0#9 ∧ s.tmo = false ∧ s.responseInv
  | .drain => s.pos = 0#9 ∧ s.tmo = false ∧ s.responseInv
  | .rx => s.pos.toNat < s.exp.toNat ∧ s.tmo = false ∧ s.wctr ≤ s.timeout ∧ s.responseInv
  | .check => (if s.tmo then s.pos.toNat < s.exp.toNat else s.pos = s.exp) ∧ s.responseInv
  | _ => True

/-- The payload window starts at 0, 2 or 3 (10_state.md R16, R31). -/
def State.windowInv (s : State) : Prop :=
  s.rxPayloadOff = 0x00#8 ∨ s.rxPayloadOff = 0x02#8 ∨ s.rxPayloadOff = 0x03#8

/-- The invariant of the machine. -/
def State.Inv (s : State) : Prop :=
  s.memInv ∧ s.statusInv ∧ s.dirInv ∧ s.phaseInv ∧ s.txInv ∧ s.rxInv ∧ s.windowInv

end Sys2Proof.Machine
end

