-- ==== Sys2Proof/Certificates/Slice0/Obligations.lean ====
section
/-! DEFINITION. The statements for the provers, from the numbered rules of spec/. `exec i s` is what one clock cycle does
whose current instruction is `i`, in the state held during that cycle; `step` adds the channel's and the host's part of
the cycle around it. A run is `runCycles n`. -/

open Sys2Proof Sys2Proof.Machine

/-! ### Encodings -/

/-- Words written out from R54, R57, R59, R60, R61 and R62 decode to the instructions they stand for. -/
def Obligations.WrittenOutWordsDecode : Prop :=
  decode .cmd [0x01#8] = .ok .crcGen ∧
  decode .cmd [0x12#8] = .ok .buildWriteMulti ∧
  decode .cmd [0x40#8] = .ok .flushRx ∧
  decode .cmd [0x41#8] = .ok (.illegal 0x41#8) ∧
  decode .wireReq [0x01#8, 0x03#8, 0x00#8, 0x00#8, 0x00#8, 0x01#8, 0x84#8, 0x0A#8] =
    .ok (.reqReadHolding 0x01#8 0x0000#16 0x0001#16 0x0A84#16) ∧
  decode .wireReq [0x01#8, 0x10#8, 0x00#8, 0x02#8, 0x00#8, 0x01#8, 0x02#8, 0xAB#8, 0xCD#8, 0x19#8, 0x17#8] =
    .ok (.reqWriteMulti 0x01#8 0x0002#16 0x0001#16 [0xAB#8, 0xCD#8] 0x1719#16) ∧
  decode .wireRsp [0x01#8, 0x03#8, 0x02#8, 0x00#8, 0x2A#8, 0x39#8, 0x9B#8] =
    .ok (.rspRead 0x01#8 [0x00#8, 0x2A#8] 0x9B39#16) ∧
  decode .wireRsp [0x01#8, 0x06#8, 0x00#8, 0x01#8, 0x00#8, 0x03#8, 0x98#8, 0x0B#8] =
    .ok (.rspWriteSingleAck 0x01#8 0x0001#16 0x0003#16 0x0B98#16) ∧
  decode .wireRsp [0x01#8, 0x83#8, 0x02#8, 0xC0#8, 0xF1#8] = .ok (.rspError 0x01#8 0x83#8 [0x02#8] 0xF1C0#16)

/-- Decode of encode, for every well-formed instruction of the three formats. -/
def Obligations.DecodeOfEncode : Prop :=
  ∀ i : Instr, i.WellFormed → decode i.format (encode i) = .ok i

/-- Whatever bytes decode in a format, the instruction belongs to that format, has the length that R53 and R57 to R64
give it, and is well-formed: a command or a response always, a request when its CRC fits. -/
def Obligations.DecodedInstructionIsWellFormed : Prop :=
  ∀ (f : Format) (bs : List Byte) (i : Instr), decode f bs = .ok i →
    i.format = f ∧ i.byteLength = bs.length ∧ (f ≠ .wireReq → i.WellFormed) ∧
    (f = .wireReq → crcValid bs = true → i.WellFormed)

/-! ### The CRC -/

/-- R84: a stamped frame validates, whatever its body; and stamping writes the CRC of the body low byte first. -/
def Obligations.StampedFrameValidates : Prop :=
  ∀ d : List Byte, crcValid (stamped d) = true ∧ stamped d = d ++ [lo8 (crc16 d), hi8 (crc16 d)]

/-- R83: a frame is valid exactly when the value carried in its last two bytes, read low byte first, is the CRC of the
rest; the source's byte-swapped comparison and the bytewise one give the same verdict. -/
def Obligations.ValidityFormsAgree : Prop :=
  ∀ (body : List Byte) (k0 k1 : Byte),
    (crcValid (body ++ [k0, k1]) = true ↔ join k1 k0 = crc16 body) ∧
    (join k1 k0 = crc16 body ↔ join k0 k1 = join (lo8 (crc16 body)) (hi8 (crc16 body))) ∧
    (join k1 k0 = crc16 body ↔ k0 = lo8 (crc16 body) ∧ k1 = hi8 (crc16 body))

/-- R79, R80, R81: the CRC function itself, written out from the rules: one byte is folded in by an exclusive or and
eight shifts with polynomial 0xA001, the start value is 0xFFFF, bytes are folded in in order, and "123456789" gives
0x4B37. A remark of R84 and of R153: folding the low CRC byte in leaves `0x00 ++ high byte`, and a stamped frame has CRC
0x0000. -/
def Obligations.CrcResidues : Prop :=
  (∀ (c : Word) (b : Byte), crcByte c b =
    (fun d : Word => if d.getLsbD 0 then (d >>> 1) ^^^ 0xA001#16 else d >>> 1)^[8] (c ^^^ b.setWidth 16)) ∧
  crc16 [] = 0xFFFF#16 ∧
  (∀ (d : List Byte) (b : Byte), crc16 (d ++ [b]) = crcByte (crc16 d) b) ∧
  crc16 [0x31#8, 0x32#8, 0x33#8, 0x34#8, 0x35#8, 0x36#8, 0x37#8, 0x38#8, 0x39#8] = 0x4B37#16 ∧
  ∀ d : List Byte,
    crc16 (d ++ [lo8 (crc16 d)]) = join 0x00#8 (hi8 (crc16 d)) ∧ crc16 (stamped d) = 0x0000#16

/-- A remark of R84, made stronger: a frame that validates fails to validate after any change confined to one byte. -/
def Obligations.OneByteChangeIsDetected : Prop :=
  ∀ (f : List Byte) (i : Nat) (v : Byte), 2 ≤ f.length → crcValid f = true → i < f.length → f[i]? ≠ some v →
    crcValid (f.set i v) = false

/-! ### Acceptance, stages and completion -/

/-- R68, R69: an idle block accepts every command word, legal or not, and changes nothing but the command registers and
the control state; the latency draw is at least 1. While busy, no step changes `LAST_CMD` or `op`. -/
def Obligations.AcceptanceOfCommands : Prop :=
  (∀ (v : Byte) (s : State), s.st = .idle →
    exec (decodeCommand v) s =
      .next { s with
        lastCmd := v, op := v, phase := (firstPhase v).1, pend := (firstPhase v).2, lat := s.drawLat, st := .stage } ∧
    1 ≤ s.drawLat) ∧
  (∀ s t : State, s.st ≠ .idle → s.input.rst = false → step s = .next t → t.lastCmd = s.lastCmd ∧ t.op = s.op)

/-- R73: an illegal opcode is accepted, and its stage writes `commandError` and nothing else. 0x00 is illegal. -/
def Obligations.IllegalOpcodeEndsInCommandError : Prop :=
  decodeCommand 0x00#8 = .illegal 0x00#8 ∧
  (∀ v : Byte, v ∉ legalOpcodes → decodeCommand v = .illegal v ∧ firstPhase v = (.badOp, .none)) ∧
  (∀ (v : Byte) (s : State), s.st = .stage → s.phase = .badOp → s.lat ≤ 1 →
    exec (.illegal v) s =
      .next { s with status := 0x02#8, st := .idle, phase := .none, pend := .none, lat := 0 })

/-- R70: a STAGE cycle with `lat > 1` only counts down, whatever command is running. -/
def Obligations.StageCountsDown : Prop :=
  ∀ (i : Instr) (s : State), i.format = .cmd → s.st = .stage → 1 < s.lat →
    exec i s = .next { s with lat := s.lat - 1 }

/-- R18: `STATUS` is written by `finish` only: a step that is no reset changes it only in the step that ends a running
command. -/
def Obligations.StatusIsWrittenByFinishOnly : Prop :=
  ∀ s t : State, s.input.rst = false → step s = .next t → t.status ≠ s.status →
    s.st ≠ .idle ∧ t.st = .idle ∧ t.phase = .none ∧ t.pend = .none ∧ t.lat = 0

/-- R161: a command without an exchange, accepted in a cycle with latency draw L, is in STAGE and busy for exactly L
cycles; the edge ending the last of them performs its `finish`. -/
def Obligations.NonExchangeCommandTiming : Prop :=
  ∀ (s : State) (v : Byte) (x : CycleInput) (ins rest : List CycleInput),
    s.st = .idle → s.bus.we = true → s.bus.addr = addrCmd → s.bus.wdata = v →
    (firstPhase v).2 = .none → (firstPhase v).1 ≠ .xStart →
    s.env.inputs = x :: (ins ++ rest) → x.rst = false → (∀ i ∈ ins, i.rst = false) → ins.length = x.extraLat + 1 →
    (∀ k, 1 ≤ k → k ≤ ins.length → ∃ t, runCycles k s = .next t ∧ t.st = .stage ∧ t.busy = true) ∧
    (∃ t, runCycles (ins.length + 1) s = .next t ∧ t.st = .idle ∧ t.busy = false ∧ t.phase = .none ∧ t.pend = .none ∧
      t.lat = 0 ∧ t.lastCmd = v ∧ (t.status = 0x01#8 ∨ t.status = 0x02#8 ∨ t.status = 0x12#8))

/-! ### The CRC commands -/

/-- R86: CRC_GEN. -/
def Obligations.CrcGenStampsTheFrame : Prop :=
  decode .cmd [0x01#8] = .ok .crcGen ∧ ∀ s : State, s.st = .stage → s.phase = .crcGen → s.lat ≤ 1 →
    (s.txCount < 2 →
      exec .crcGen s = .next { s with status := 0x02#8, st := .idle, phase := .none, pend := .none, lat := 0 }) ∧
    (2 ≤ s.txCount → ∃ t, exec .crcGen s = .next t ∧
      t = { s with
        mem := t.mem, crcCalc := crc16 (s.txBytes 0 (s.txCount - 2))
        status := 0x01#8, st := .idle, phase := .none, pend := .none, lat := 0 } ∧
      t.txByte (s.txCount - 2) = lo8 t.crcCalc ∧ t.txByte (s.txCount - 1) = hi8 t.crcCalc ∧
      ∀ a, a ≠ txBase + (s.txCount - 2) → a ≠ txBase + (s.txCount - 1) → t.byteAt a = s.byteAt a)

/-- R87: CRC_CHECK. No byte of memory changes. -/
def Obligations.CrcCheckComparesTheFrame : Prop :=
  ∀ s : State, s.st = .stage → s.phase = .crcChk → s.lat ≤ 1 →
    (s.txCount < 2 →
      exec .crcCheck s = .next { s with status := 0x02#8, st := .idle, phase := .none, pend := .none, lat := 0 }) ∧
    (2 ≤ s.txCount → ∃ t, exec .crcCheck s = .next t ∧
      t.crcCalc = crc16 (s.txBytes 0 (s.txCount - 2)) ∧
      t.crcRecv = join (s.txByte (s.txCount - 1)) (s.txByte (s.txCount - 2)) ∧
      t = { s with
        crcCalc := t.crcCalc, crcRecv := t.crcRecv, crcMatch := decide (t.crcRecv = t.crcCalc)
        status := if t.crcRecv = t.crcCalc then 0x01#8 else 0x12#8
        st := .idle, phase := .none, pend := .none, lat := 0 })

/-- R87's corner case: a CRC_CHECK stage behind a CRC_GEN stage, with no host write between, always finds a match. -/
def Obligations.CrcCheckAfterCrcGenMatches : Prop :=
  ∀ s t u : State, s.st = .stage → s.phase = .crcGen → s.lat ≤ 1 → 2 ≤ s.txCount → exec .crcGen s = .next t →
    exec .crcCheck { t with st := .stage, phase := .crcChk, lat := 1 } = .next u →
    u.status = 0x01#8 ∧ u.crcMatch = true ∧ u.crcRecv = t.crcCalc

/-! ### The serializer -/

/-- R88, R57: BUILD_READ. -/
def Obligations.BuildReadWritesTheRequest : Prop :=
  ∀ s : State, s.st = .stage → s.phase = .bRead → s.pend = .none → s.lat ≤ 1 →
    ∃ t, exec .buildRead s = .next t ∧
      t = { s with
        mem := t.mem, txLen := 0x08#8
        crcCalc := crc16 [s.unitId, 0x03#8, hi8 s.addr, lo8 s.addr, hi8 s.val, lo8 s.val]
        status := 0x01#8, st := .idle, phase := .none, pend := .none, lat := 0 } ∧
      t.txBytes 0 8 =
        [s.unitId, 0x03#8, hi8 s.addr, lo8 s.addr, hi8 s.val, lo8 s.val, lo8 t.crcCalc, hi8 t.crcCalc] ∧
      ∀ a, a < txBase ∨ txBase + 8 ≤ a → t.byteAt a = s.byteAt a

/-- R89, R58: BUILD_WRITE_SINGLE. -/
def Obligations.BuildWriteSingleWritesTheRequest : Prop :=
  ∀ s : State, s.st = .stage → s.phase = .bWSingle → s.pend = .none → s.lat ≤ 1 →
    ∃ t, exec .buildWriteSingle s = .next t ∧
      t = { s with
        mem := t.mem, txLen := 0x08#8
        crcCalc := crc16 [s.unitId, 0x06#8, hi8 s.addr, lo8 s.addr, hi8 s.val, lo8 s.val]
        status := 0x01#8, st := .idle, phase := .none, pend := .none, lat := 0 } ∧
      t.txBytes 0 8 =
        [s.unitId, 0x06#8, hi8 s.addr, lo8 s.addr, hi8 s.val, lo8 s.val, lo8 t.crcCalc, hi8 t.crcCalc] ∧
      ∀ a, a < txBase ∨ txBase + 8 ≤ a → t.byteAt a = s.byteAt a

/-- R90, R59: BUILD_WRITE_MULTI, refused above 123 registers; otherwise the header and the CRC are written around the
host's data, and no other byte. -/
def Obligations.BuildWriteMultiWritesTheRequest : Prop :=
  ∀ s : State, s.st = .stage → s.phase = .bWMulti → s.pend = .none → s.lat ≤ 1 →
    (123 < s.val.toNat →
      exec .buildWriteMulti s =
        .next { s with status := 0x02#8, st := .idle, phase := .none, pend := .none, lat := 0 }) ∧
    (s.val.toNat ≤ 123 → ∃ t, exec .buildWriteMulti s = .next t ∧
      t = { s with
        mem := t.mem, txLen := t.txLen
        crcCalc :=
          crc16 ([s.unitId, 0x10#8, hi8 s.addr, lo8 s.addr, hi8 s.val, lo8 s.val, BitVec.ofNat 8 (2 * s.val.toNat)]
            ++ s.txBytes 7 (2 * s.val.toNat))
        status := 0x01#8, st := .idle, phase := .none, pend := .none, lat := 0 } ∧
      t.txCount = 9 + 2 * s.val.toNat ∧
      t.txFrame =
        [s.unitId, 0x10#8, hi8 s.addr, lo8 s.addr, hi8 s.val, lo8 s.val, BitVec.ofNat 8 (2 * s.val.toNat)]
          ++ s.txBytes 7 (2 * s.val.toNat) ++ [lo8 t.crcCalc, hi8 t.crcCalc] ∧
      ∀ a, a < txBase ∨ txBase + 7 ≤ a → a ≠ txBase + 7 + 2 * s.val.toNat → a ≠ txBase + 8 + 2 * s.val.toNat →
        t.byteAt a = s.byteAt a)

/-- R69, R98, R99, R100: a build phase with an exchange pending builds the same frame and goes on to PH_XSTART instead of
finishing; a refused write-multiple build ends the command. -/
def Obligations.CompositeBuildContinuesIntoExchange : Prop :=
  ∀ s : State, s.st = .stage → s.pend = .exchange → s.lat ≤ 1 →
    (s.phase = .bRead → ∃ t, exec .readRegs s = .next t ∧
      t = { s with
        mem := t.mem, txLen := 0x08#8, crcCalc := crc16 (reqHeader s.unitId 0x03#8 s.addr s.val)
        phase := .xStart, pend := .none, lat := s.drawLat } ∧
      t.txFrame = stamped (reqHeader s.unitId 0x03#8 s.addr s.val) ∧
      ∀ a, a < txBase ∨ txBase + 8 ≤ a → t.byteAt a = s.byteAt a) ∧
    (s.phase = .bWSingle → ∃ t, exec .writeSingle s = .next t ∧
      t = { s with
        mem := t.mem, txLen := 0x08#8, crcCalc := crc16 (reqHeader s.unitId 0x06#8 s.addr s.val)
        phase := .xStart, pend := .none, lat := s.drawLat } ∧
      t.txFrame = stamped (reqHeader s.unitId 0x06#8 s.addr s.val) ∧
      ∀ a, a < txBase ∨ txBase + 8 ≤ a → t.byteAt a = s.byteAt a) ∧
    (s.phase = .bWMulti → s.val.toNat ≤ 123 → ∃ t, exec .writeMulti s = .next t ∧
      t = { s with
        mem := t.mem, txLen := t.txLen
        crcCalc := crc16 (multiBody s.unitId s.addr s.val (s.txBytes 7 (2 * s.val.toNat)))
        phase := .xStart, pend := .none, lat := s.drawLat } ∧
      t.txFrame = stamped (multiBody s.unitId s.addr s.val (s.txBytes 7 (2 * s.val.toNat))) ∧
      ∀ a, a < txBase ∨ txBase + 7 ≤ a → a ≠ txBase + 7 + 2 * s.val.toNat → a ≠ txBase + 8 + 2 * s.val.toNat →
        t.byteAt a = s.byteAt a) ∧
    (s.phase = .bWMulti → 123 < s.val.toNat →
      exec .writeMulti s =
        .next { s with status := 0x02#8, st := .idle, phase := .none, pend := .none, lat := 0 })

/-! ### The exchange: transmit side -/

/-- R92, R93: PH_XSTART of the four exchange commands. -/
def Obligations.ExchangeStartStampsClearsAndFlushes : Prop :=
  ∀ (i : Instr) (s : State), isExchangeCommand i = true → s.st = .stage → s.phase = .xStart → s.lat ≤ 1 →
    (s.txCount < 2 →
      exec i s = .next { s with status := 0x02#8, st := .idle, phase := .none, pend := .none, lat := 0 }) ∧
    (2 ≤ s.txCount → ∃ t, exec i s = .next t ∧
      t = { s with
        mem := t.mem
        rxFc := 0x00#8, pos := 0#9, rxPayloadOff := 0x00#8, rxPayloadLen := 0x00#8
        crcCalc := 0x0000#16, crcRecv := 0x0000#16, crcMatch := false
        cls := .none, exp := 5#9, tmo := false, wctr := 0, txi := 0x00#8
        chan := { s.chan with fifo := [] }, dir := true, st := .tx } ∧
      t.txFrame = stamped (s.txBytes 0 (s.txCount - 2)) ∧
      ∀ a, a ≠ txBase + (s.txCount - 2) → a ≠ txBase + (s.txCount - 1) → t.byteAt a = s.byteAt a)

/-- R94: a TX cycle of an exchange command, or of the request frame that stands in `TX_BUF`. -/
def Obligations.TransmitCycleHandsOverOneByte : Prop :=
  ∀ (i : Instr) (s : State), isExchangeCommand i = true ∨ (i.format = .wireReq ∧ encode i = s.txFrame) →
    s.st = .tx → s.txi.toNat < s.txCount →
    (s.input.txReady = false → exec i s = .next s) ∧
    (s.input.txReady = true → s.txi.toNat + 1 = s.txCount →
      exec i s =
        .next { s with chan := { s.chan with unsent := s.chan.unsent ++ [s.txByte s.txi.toNat] }, st := .drain }) ∧
    (s.input.txReady = true → s.txi.toNat + 1 ≠ s.txCount →
      exec i s =
        .next { s with
          chan := { s.chan with unsent := s.chan.unsent ++ [s.txByte s.txi.toNat] }, txi := s.txi + 1 })

/-- R94: a whole frame is handed over in index order, each byte once, in as many ready cycles as it has bytes. -/
def Obligations.WholeFrameGoesOutInOrder : Prop :=
  ∀ (s : State) (ins rest : List CycleInput),
    s.st = .tx → s.txi = 0x00#8 → 1 ≤ s.txCount → s.env.inputs = ins ++ rest → ins.length = s.txCount →
    (∀ i ∈ ins, i.rst = false ∧ i.txReady = true) →
    ∃ t, runCycles s.txCount s = .next t ∧ t.st = .drain ∧ t.dir = s.dir ∧ t.mem = s.mem ∧ t.txLen = s.txLen ∧
      t.chan.sent ++ t.chan.unsent = s.chan.sent ++ s.chan.unsent ++ s.txFrame

/-- R95: a DRAIN cycle of the exchange commands: nothing changes until every taken byte has left the line; then the
flush and the switch to receive happen at one edge. -/
def Obligations.DrainFlushesAndTurnsRound : Prop :=
  ∀ (i : Instr) (s : State), isExchangeCommand i = true → s.st = .drain →
    (s.chan.unsent ≠ [] → exec i s = .next s) ∧
    (s.chan.unsent = [] →
      exec i s = .next { s with chan := { s.chan with fifo := [] }, dir := false, wctr := 0, st := .rx })

/-- R101: FLUSH_RX empties the FIFO and writes nothing but `STATUS`. -/
def Obligations.FlushRxEmptiesTheFifo : Prop :=
  decode .cmd [0x40#8] = .ok .flushRx ∧ ∀ s : State, s.st = .stage → s.phase = .flush → s.lat ≤ 1 →
    ∃ t, exec .flushRx s = .next t ∧ t.chan.fifo = [] ∧
      t = { s with chan := t.chan, status := 0x01#8, st := .idle, phase := .none, pend := .none, lat := 0 } ∧
      t.chan.unsent = s.chan.unsent ∧ t.chan.sent = s.chan.sent ∧ ∀ a, t.byteAt a = s.byteAt a

/-- R155, R134: the two transmit hangs are infinite runs: while the channel takes no byte, or while bytes stay on the
line, the command stays where it is and busy. -/
def Obligations.StalledChannelKeepsTheCommandRunning : Prop :=
  ∀ (s : State) (ins rest : List CycleInput), s.env.inputs = ins ++ rest →
    (s.st = .tx → (∀ i ∈ ins, i.rst = false ∧ i.txReady = false) →
      ∃ t, runCycles ins.length s = .next t ∧ t.st = .tx ∧ t.txi = s.txi ∧ t.status = s.status) ∧
    (s.st = .drain → s.chan.unsent ≠ [] → (∀ i ∈ ins, i.rst = false ∧ i.left = 0) →
      ∃ t, runCycles ins.length s = .next t ∧ t.st = .drain ∧ t.dir = s.dir ∧ t.status = s.status)

/-! ### The exchange: receive side -/

/-- R105: at position 0 a byte that is not the unit id is discarded: it is popped, the wait restarts, and nothing else
changes. -/
def Obligations.ForeignByteIsDiscarded : Prop :=
  ∀ (i : Instr) (s : State) (b : Byte) (rest : List Byte), isExchangeCommand i = true → s.st = .rx →
    s.chan.fifo = b :: rest → s.pos = 0#9 → b ≠ s.unitId →
    exec i s = .next { s with chan := { s.chan with fifo := rest }, wctr := 0 }

/-- R106, R107, R108, R122: an accepted byte is stored at `pos`, which advances; position 1 is the function code,
position 2 of a READ response the byte count; the byte that completes the frame moves the block to CHECK. -/
def Obligations.AcceptedByteIsStoredAndClassified : Prop :=
  ∀ (i : Instr) (s : State) (b : Byte) (rest : List Byte), isExchangeCommand i = true → s.st = .rx →
    s.chan.fifo = b :: rest → (s.pos ≠ 0#9 ∨ b = s.unitId) → s.pos.toNat < 260 →
    ∃ t, exec i s = .next t ∧
      t = { s with
        mem := t.mem, chan := { s.chan with fifo := rest }, wctr := 0, pos := s.pos + 1
        rxFc := t.rxFc, cls := t.cls, exp := t.exp, st := t.st, lat := t.lat } ∧
      t.rxByte s.pos.toNat = b ∧ (∀ a, a ≠ rxBase + s.pos.toNat → t.byteAt a = s.byteAt a) ∧
      (s.pos = 1#9 → t.rxFc = b ∧
        (b = 0x03#8 → t.cls = .read ∧ t.exp = s.exp) ∧
        (b = 0x06#8 ∨ b = 0x10#8 → t.cls = .wack ∧ t.exp = 8#9) ∧
        (b ≠ 0x03#8 → b ≠ 0x06#8 → b ≠ 0x10#8 → t.cls = .err ∧ t.exp = 6#9)) ∧
      (s.pos ≠ 1#9 → t.rxFc = s.rxFc ∧ t.cls = s.cls) ∧
      (s.pos = 2#9 → s.cls = .read → t.exp.toNat = b.toNat + 5) ∧
      (s.pos ≠ 1#9 → ¬ (s.pos = 2#9 ∧ s.cls = .read) → t.exp = s.exp) ∧
      (t.pos = t.exp → t.st = .check ∧ t.lat = s.drawLat) ∧
      (t.pos ≠ t.exp → t.st = .rx ∧ t.lat = s.lat)

/-- R122, R103: an RX cycle without a byte counts, or, at TIMEOUT, ends the loop. -/
def Obligations.EmptyReceiveCycleCountsOrTimesOut : Prop :=
  ∀ (i : Instr) (s : State), isExchangeCommand i = true → s.st = .rx → s.chan.fifo = [] →
    (s.wctr ≠ s.env.params.pollTries * s.env.params.pollDelay → exec i s = .next { s with wctr := s.wctr + 1 }) ∧
    (s.wctr = s.env.params.pollTries * s.env.params.pollDelay →
      exec i s = .next { s with tmo := true, st := .check, lat := s.drawLat })

/-- R103: the wait window over a run of cycles: a wait at count 0 with no byte in the cycles so far goes on through
TIMEOUT cycles and times out in cycle TIMEOUT, so that the elapsed wait is TIMEOUT cycles. -/
def Obligations.WaitTimesOutAfterTimeoutCycles : Prop :=
  ∀ (s : State) (ins rest : List CycleInput), s.st = .rx → s.wctr = 0 → s.chan.fifo = [] →
    s.env.inputs = ins ++ rest → (∀ i ∈ ins, i.rst = false ∧ i.arrivals = []) →
    (ins.length ≤ s.timeout →
      ∃ t, runCycles ins.length s = .next t ∧ t.st = .rx ∧ t.wctr = ins.length ∧ t.tmo = s.tmo ∧ t.pos = s.pos ∧
        t.mem = s.mem) ∧
    (ins.length = s.timeout + 1 →
      ∃ t, runCycles ins.length s = .next t ∧ t.st = .check ∧ t.tmo = true ∧ t.pos = s.pos ∧ t.mem = s.mem)

/-- R104, R119: at position 0, bytes other than the unit id keep the loop there for ever if they come in time. Every byte
that is queued or arrives is foreign, and in no TIMEOUT + 1 cycles in a row does none arrive, so each comes within TIMEOUT
cycles of the one before it (or of the start of the wait). Through all of these cycles the block stays in RX at
position 0. -/
def Obligations.ForeignBytesKeepTheLoopAtPositionZero : Prop :=
  ∀ (s : State) (ins rest : List CycleInput), s.st = .rx → s.pos = 0#9 → s.wctr = 0 →
    (∀ b ∈ s.chan.fifo, b ≠ s.unitId) → s.env.inputs = ins ++ rest →
    (∀ i ∈ ins, i.rst = false ∧ ∀ b ∈ i.arrivals, b ≠ s.unitId) →
    (∀ k, k + s.timeout < ins.length → ∃ i ∈ (ins.drop k).take (s.timeout + 1), i.arrivals ≠ []) →
    ∀ k, k ≤ ins.length →
      ∃ t, runCycles k s = .next t ∧ t.st = .rx ∧ t.pos = 0#9 ∧ t.mem = s.mem ∧ t.status = s.status ∧
        t.exp = s.exp ∧ t.cls = s.cls ∧ t.rxFc = s.rxFc

/-! ### The exchange: classification -/

/-- R110, R131: the CHECK action of an exchange command, in the order of its tests. -/
def Obligations.CheckClassifiesInOrder : Prop :=
  ∀ (i : Instr) (s : State), isExchangeCommand i = true → s.st = .check → s.lat ≤ 1 →
    (s.pos = 0#9 →
      exec i s = .next { s with status := 0x10#8, st := .idle, phase := .none, pend := .none, lat := 0 }) ∧
    (s.pos ≠ 0#9 → s.tmo = true → ¬ (s.cls = .err ∧ s.pos = 5#9) →
      exec i s = .next { s with status := 0x11#8, st := .idle, phase := .none, pend := .none, lat := 0 }) ∧
    (2 ≤ s.pos.toNat → (s.tmo = false ∨ s.cls = .err ∧ s.pos = 5#9) → ∃ t, exec i s = .next t ∧
      t.crcCalc = crc16 (s.rxBytes 0 (s.pos.toNat - 2)) ∧
      t.crcRecv = join (s.rxByte (s.pos.toNat - 1)) (s.rxByte (s.pos.toNat - 2)) ∧
      t = { s with
        rxPayloadOff := (payloadOf s.cls s.pos.toNat).1, rxPayloadLen := (payloadOf s.cls s.pos.toNat).2
        crcCalc := t.crcCalc, crcRecv := t.crcRecv, crcMatch := decide (t.crcRecv = t.crcCalc)
        status :=
          if t.crcRecv ≠ t.crcCalc then 0x12#8
          else if s.rxFc = 0x03#8 then 0x16#8
          else if s.rxFc = 0x06#8 then 0x14#8
          else if s.rxFc = 0x10#8 then 0x15#8
          else 0x13#8
        st := .idle, phase := .none, pend := .none, lat := 0 })

/-- R60, R114, R115: the classification of a read response. -/
def Obligations.ReadResponseIsClassified : Prop :=
  ∀ (u : Byte) (d : List Byte) (k : Word) (s : State), d.length ≤ 255 → s.st = .check → s.lat ≤ 1 →
    exec (.rspRead u d k) s =
      .next { s with
        rxPayloadOff := 0x03#8, rxPayloadLen := BitVec.ofNat 8 d.length
        crcCalc := crc16 (u :: 0x03#8 :: BitVec.ofNat 8 d.length :: d), crcRecv := k
        crcMatch := decide (k = crc16 (u :: 0x03#8 :: BitVec.ofNat 8 d.length :: d))
        status := if k = crc16 (u :: 0x03#8 :: BitVec.ofNat 8 d.length :: d) then 0x16#8 else 0x12#8
        st := .idle, phase := .none, pend := .none, lat := 0 }

/-- R61, R114, R115, R116: the classification of a write acknowledgement, whatever the fields it echoes. -/
def Obligations.WriteAcknowledgementIsClassified : Prop :=
  ∀ (u : Byte) (a v k : Word) (s : State), s.st = .check → s.lat ≤ 1 →
    exec (.rspWriteSingleAck u a v k) s =
      .next { s with
        rxPayloadOff := 0x02#8, rxPayloadLen := 0x04#8
        crcCalc := crc16 [u, 0x06#8, hi8 a, lo8 a, hi8 v, lo8 v], crcRecv := k
        crcMatch := decide (k = crc16 [u, 0x06#8, hi8 a, lo8 a, hi8 v, lo8 v])
        status := if k = crc16 [u, 0x06#8, hi8 a, lo8 a, hi8 v, lo8 v] then 0x14#8 else 0x12#8
        st := .idle, phase := .none, pend := .none, lat := 0 } ∧
    exec (.rspWriteMultiAck u a v k) s =
      .next { s with
        rxPayloadOff := 0x02#8, rxPayloadLen := 0x04#8
        crcCalc := crc16 [u, 0x10#8, hi8 a, lo8 a, hi8 v, lo8 v], crcRecv := k
        crcMatch := decide (k = crc16 [u, 0x10#8, hi8 a, lo8 a, hi8 v, lo8 v])
        status := if k = crc16 [u, 0x10#8, hi8 a, lo8 a, hi8 v, lo8 v] then 0x15#8 else 0x12#8
        st := .idle, phase := .none, pend := .none, lat := 0 }

/-- R62, R114, R115: the classification of an error response, with an error code of one or two bytes. -/
def Obligations.ErrorResponseIsClassified : Prop :=
  ∀ (u f : Byte) (c : List Byte) (k : Word) (s : State), f ≠ 0x03#8 → f ≠ 0x06#8 → f ≠ 0x10#8 →
    (c.length = 1 ∨ c.length = 2) → s.st = .check → s.lat ≤ 1 →
    exec (.rspError u f c k) s =
      .next { s with
        rxPayloadOff := 0x02#8, rxPayloadLen := BitVec.ofNat 8 c.length
        crcCalc := crc16 (u :: f :: c), crcRecv := k
        crcMatch := decide (k = crc16 (u :: f :: c))
        status := if k = crc16 (u :: f :: c) then 0x13#8 else 0x12#8
        st := .idle, phase := .none, pend := .none, lat := 0 }

/-- R153: a genuine 5-byte error frame followed in time by a byte `z` is classified as a 6-byte frame: with `z = 0x00` it
is a slave error with a wrong two-byte code, with any other `z` an invalid frame. -/
def Obligations.ErrorFrameFollowedByNoise : Prop :=
  ∀ (u f c z : Byte) (s : State), f ≠ 0x03#8 → f ≠ 0x06#8 → f ≠ 0x10#8 → s.st = .check → s.lat ≤ 1 →
    ∃ t, exec (.rspError u f [c, lo8 (crc16 [u, f, c])] (join z (hi8 (crc16 [u, f, c])))) s = .next t ∧
      (z = 0x00#8 → t.status = 0x13#8 ∧ t.rxPayloadLen = 0x02#8 ∧ t.crcMatch = true) ∧
      (z ≠ 0x00#8 → t.status = 0x12#8 ∧ t.crcMatch = false)

/-- R113: where the invariant of the receive loop holds and CHECK reaches the CRC comparison, the frame is complete by
its inferred length. -/
def Obligations.CheckedFrameIsComplete : Prop :=
  ∀ s : State, s.rxInv → s.st = .check → s.pos ≠ 0#9 → (s.tmo = false ∨ s.cls = .err ∧ s.pos = 5#9) →
    5 ≤ s.pos.toNat ∧ s.cls ≠ .none ∧
    (s.cls = .read → s.pos.toNat = (s.rxByte 2).toNat + 5) ∧
    (s.cls = .wack → s.pos.toNat = 8) ∧
    (s.cls = .err → s.pos.toNat = 5 ∨ s.pos.toNat = 6)

/-! ### The two levels of an exchange -/

/-- R126: the cycle level from the first RX cycle on and the transaction level give the same response, result registers
and final status, at every latency draw, for every delivery of bytes: `arr` is what arrives in each cycle, any number of
bytes in any of them, behind whatever the FIFO holds at the start, and then the line is silent until the loop must have
ended. -/
def Obligations.ReceiveAgreesWithTransactionLevel : Prop :=
  ∀ (s : State) (arr : List (List Byte)) (stream : List (Nat × Byte)) (ins rest : List CycleInput),
    s.st = .rx → s.rxInv → s.wctr = 0 → s.env.inputs = ins ++ rest →
    ins.map (·.arrivals) =
      arr ++ List.replicate (s.chan.fifo.length + arr.flatten.length + s.timeout + 1) [] →
    stream = gapsOf 0 (s.chan.fifo.map (fun b => (0, b)) ++ deliveriesOf 0 arr) →
    (∀ i ∈ s.env.inputs, i.rst = false) → (∀ i ∈ ins, i.extraLat + 1 ≤ rest.length) →
    ∃ n t, runCycles n s = .next t ∧ t.st = .idle ∧
      t.status = (s.receive stream).checkAction.status ∧
      t.mem = (s.receive stream).mem ∧ t.pos = (s.receive stream).pos ∧ t.rxFc = (s.receive stream).rxFc ∧
      t.cls = (s.receive stream).cls ∧ t.tmo = (s.receive stream).tmo ∧
      t.rxPayloadOff = (s.receive stream).checkAction.rxPayloadOff ∧
      t.rxPayloadLen = (s.receive stream).checkAction.rxPayloadLen ∧
      t.crcCalc = (s.receive stream).checkAction.crcCalc ∧ t.crcRecv = (s.receive stream).checkAction.crcRecv ∧
      t.crcMatch = (s.receive stream).checkAction.crcMatch

/-- R91, R126: a whole exchange from PH_XSTART on, over a ready channel that is empty in the first DRAIN cycle, ends as the
transaction level says for every delivery `arr` of bytes from the first RX cycle on, whatever stood in the FIFO before or
arrived during transmission; the line has carried exactly the stamped frame. -/
def Obligations.ExchangeAgreesWithTransactionLevel : Prop :=
  ∀ (s : State) (arr : List (List Byte)) (stream : List (Nat × Byte)) (x d : CycleInput)
    (txs ins rest : List CycleInput),
    s.st = .stage → s.phase = .xStart → s.pend = .none → s.lat = 1 → 2 ≤ s.txCount →
    s.env.inputs = x :: (txs ++ d :: (ins ++ rest)) → txs.length = s.txCount → (∀ i ∈ txs, i.txReady = true) →
    s.chan.unsent.length + s.txCount ≤ d.left →
    ins.map (·.arrivals) = arr ++ List.replicate (arr.flatten.length + s.timeout + 1) [] →
    stream = gapsOf 0 (deliveriesOf 0 arr) →
    (∀ i ∈ s.env.inputs, i.rst = false) → (∀ i ∈ ins, i.extraLat + 1 ≤ rest.length) →
    ∃ n t, runCycles n s = .next t ∧ t.st = .idle ∧ t.dir = false ∧
      t.chan.sent = s.chan.sent ++ s.chan.unsent ++ stamped (s.txBytes 0 (s.txCount - 2)) ∧
      t.status = (s.exchangeLevel stream).status ∧ t.mem = (s.exchangeLevel stream).mem ∧
      t.pos = (s.exchangeLevel stream).pos ∧ t.rxFc = (s.exchangeLevel stream).rxFc ∧
      t.cls = (s.exchangeLevel stream).cls ∧
      t.rxPayloadOff = (s.exchangeLevel stream).rxPayloadOff ∧
      t.rxPayloadLen = (s.exchangeLevel stream).rxPayloadLen ∧
      t.crcCalc = (s.exchangeLevel stream).crcCalc ∧ t.crcRecv = (s.exchangeLevel stream).crcRecv ∧
      t.crcMatch = (s.exchangeLevel stream).crcMatch

/-! ### The host port -/

/-- R38, R47: `HostRead` over the whole address map, registers most significant byte first (R43), and 0x00 at every
reserved address. -/
def Obligations.HostReadMap : Prop :=
  ∀ s : State,
    s.hostRead 0x000#11 = s.lastCmd ∧ s.hostRead 0x001#11 = s.status ∧ s.hostRead 0x002#11 = s.flags ∧
    s.hostRead 0x003#11 = s.unitId ∧
    join (s.hostRead 0x004#11) (s.hostRead 0x005#11) = s.addr ∧
    join (s.hostRead 0x006#11) (s.hostRead 0x007#11) = s.val ∧
    s.hostRead 0x008#11 = s.txLen ∧ s.hostRead 0x009#11 = s.rxFc ∧
    (join (s.hostRead 0x00A#11) (s.hostRead 0x00B#11)).toNat = s.pos.toNat ∧
    s.hostRead 0x00C#11 = s.rxPayloadOff ∧ s.hostRead 0x00D#11 = s.rxPayloadLen ∧
    join (s.hostRead 0x00E#11) (s.hostRead 0x00F#11) = s.crcCalc ∧
    join (s.hostRead 0x010#11) (s.hostRead 0x011#11) = s.crcRecv ∧
    s.hostRead 0x012#11 = classCode s.cls ∧
    join (s.hostRead 0x014#11) (s.hostRead 0x015#11) ++ join (s.hostRead 0x016#11) (s.hostRead 0x017#11) = s.baud ∧
    (∀ i, i ≤ 254 → s.hostRead (BitVec.ofNat 11 (0x100 + i)) = s.txByte i) ∧
    (∀ i, i ≤ 259 → s.hostRead (BitVec.ofNat 11 (0x200 + i)) = s.rxByte i) ∧
    (∀ i, i ≤ 254 → s.hostRead (BitVec.ofNat 11 (0x400 + i)) = s.rxByte (s.rxPayloadOff.toNat + i)) ∧
    (∀ a : BitVec 11,
      (a = 0x013#11 ∨ 0x018 ≤ a.toNat ∧ a.toNat ≤ 0x0FF ∨ a = 0x1FF#11 ∨ 0x304 ≤ a.toNat ∧ a.toNat ≤ 0x3FF ∨
        0x4FF ≤ a.toNat) → s.hostRead a = 0x00#8)

/-- R19, R75: the FLAGS register bit by bit. -/
def Obligations.FlagsBits : Prop :=
  ∀ s : State,
    (s.flags.getLsbD 0 = true ↔ s.st ≠ .idle) ∧ s.flags.getLsbD 1 = s.dir ∧ s.flags.getLsbD 2 = s.crcMatch ∧
    ∀ k, 3 ≤ k → s.flags.getLsbD k = false

/-- R35, R39: a host write to a writable location of an idle block is read back in the next cycle, and every other
location reads as before; memory outside the location is unchanged. -/
def Obligations.HostWriteIsReadBack : Prop :=
  ∀ s : State, s.st = .idle → s.input.rst = false → s.bus.we = true → writableLocation s.bus.addr = true →
    ∃ t, step s = .next t ∧ t.st = .idle ∧ t.hostRead s.bus.addr = s.bus.wdata ∧
      (∀ b, b ≠ s.bus.addr → t.hostRead b = s.hostRead b) ∧
      ∀ a, a ≠ s.bus.addr.toNat → t.byteAt a = s.byteAt a

/-- R39: a host write to a read-only or reserved location of an idle block is ignored: the next state is that of a cycle
without an access, up to the byte read and the host's own program. -/
def Obligations.ReadOnlyAndReservedWritesAreIgnored : Prop :=
  ∀ s : State, s.st = .idle → s.input.rst = false → s.bus.we = true → writableLocation s.bus.addr = false →
    s.bus.addr ≠ addrCmd →
    step s = .next (s.beginCycle.endCycle s.beginCycle)

/-- R34: while the block is busy the host access of the cycle changes nothing: two states that differ only in the host's
program step to states that differ only in it and in the byte read. -/
def Obligations.HostAccessWhileBusyChangesNothing : Prop :=
  ∀ (s : State) (h : List HostOp), s.st ≠ .idle →
    ∃ t u, step s = .next t ∧ step { s with env := { s.env with host := h } } = .next u ∧
      u = { t with env := { t.env with host := u.env.host, out := u.env.out } } ∧
      u.env.out = { t.env.out with hRdata := u.env.out.hRdata }

/-- R37, R38, R46: a host read has no side effect: an idle cycle without a host write changes nothing of the block, and in
a cycle with a read the byte read is `HostRead` of the address. -/
def Obligations.HostReadHasNoSideEffect : Prop :=
  ∀ s : State, s.st = .idle → s.input.rst = false → s.bus.we = false →
    ∃ t, step s = .next t ∧
      t = { s with chan := s.beginCycle.chan, env := t.env } ∧ t.env.params = s.env.params ∧
      t.env.resets = s.env.resets ∧ (s.bus.re = true → t.env.out.hRdata = s.hostRead s.bus.addr)

/-- R67: the polling loop `wait` repeats while the block is busy and ends at the first read that finds it idle. -/
def Obligations.WaitLoopPollsBusy : Prop :=
  ∀ (s t : State) (rest : List HostOp), s.env.host = .wait :: rest → step s = .next t →
    t.env.out.hRdata = s.flags ∧
    (s.busy = true → t.env.host = .wait :: rest) ∧ (s.busy = false → t.env.host = rest)

/-! ### Whole-machine rules -/

/-- Every step answers a next state: no fault, no refused input (R134). -/
def Obligations.EveryStepGoesOn : Prop := ∀ s : State, ∃ t, step s = .next t

/-- A step runs the current instruction: in a cycle that is no reset, the step is the meaning of the current instruction
in the state the channel has begun the cycle with, and then the end of the cycle. In an idle block the current
instruction is the one that decodes from the word written to `CMD`; in TX the one that decodes from the frame in
`TX_BUF`; in the other busy states, where no complete response is being classified, the running command. -/
def Obligations.StepRunsTheCurrentInstruction : Prop :=
  (∀ (s : State) (i : Instr), s.input.rst = false → s.beginCycle.current = some i →
    step s = endOutcome s.beginCycle (exec i s.beginCycle)) ∧
  (∀ (s : State) (i : Instr), s.st = .idle → s.bus.we = true → s.bus.addr = addrCmd →
    decode .cmd [s.bus.wdata] = .ok i → s.current = some i) ∧
  (∀ (s : State) (i : Instr), s.st = .tx → decode .wireReq s.txFrame = .ok i → s.current = some i) ∧
  (∀ (s : State) (i : Instr), s.st = .stage ∨ s.st = .drain ∨ s.st = .rx → decode .cmd [s.op] = .ok i →
    s.current = some i)

/-- In CHECK, where the invariant of the receive loop holds, a complete response decodes, and what it decodes to is the
current instruction (R63, R110). -/
def Obligations.CompleteResponseIsTheCurrentInstruction : Prop :=
  ∀ s : State, s.st = .check → s.rxInv → s.pos ≠ 0#9 → (s.tmo = false ∨ s.cls = .err ∧ s.pos = 5#9) →
    ∃ i, decode .wireRsp s.rxFrame = .ok i ∧ encode i = s.rxFrame ∧ s.current = some i

/-- R125: the complete transition table, for one step from every state that has the invariant. What the channel shows
the block in the cycle is what it held plus what the cycle's inputs bring. -/
def Obligations.ControlStateTransitions : Prop :=
  ∀ s t : State, s.Inv → step s = .next t →
    (s.input.rst = true →
      t.st = .idle ∧ t = { State.reset with baud := s.env.params.baudReset, chan := t.chan, env := t.env }) ∧
    (s.input.rst = false →
      (s.st = .idle → s.bus.we = true → s.bus.addr = addrCmd → t.st = .stage) ∧
      (s.st = .idle → (s.bus.we = false ∨ s.bus.addr ≠ addrCmd) → t.st = .idle) ∧
      (s.st = .stage → 1 < s.lat → t.st = .stage ∧ t.phase = s.phase ∧ t.lat = s.lat - 1) ∧
      (s.st = .stage → s.lat = 1 → s.phase = .xStart → 2 ≤ s.txCount → t.st = .tx) ∧
      (s.st = .stage → s.lat = 1 → s.pend = .exchange → (s.phase = .bWMulti → s.val.toNat ≤ 123) →
        t.st = .stage ∧ t.phase = .xStart) ∧
      (s.st = .stage → s.lat = 1 → (s.phase = .xStart → s.txCount < 2) →
        (s.pend = .exchange → s.phase = .bWMulti ∧ 123 < s.val.toNat) → t.st = .idle) ∧
      (s.st = .tx → s.input.txReady = true → s.txi.toNat + 1 = s.txCount → t.st = .drain) ∧
      (s.st = .tx → s.input.txReady = true → s.txi.toNat + 1 < s.txCount →
        t.st = .tx ∧ t.txi.toNat = s.txi.toNat + 1) ∧
      (s.st = .tx → s.input.txReady = false → t.st = .tx ∧ t.txi = s.txi) ∧
      (s.st = .drain → s.chan.unsent.drop s.input.left = [] → t.st = .rx) ∧
      (s.st = .drain → s.chan.unsent.drop s.input.left ≠ [] → t.st = .drain) ∧
      (∀ (b : Byte) (rest : List Byte), s.st = .rx → s.chan.fifo ++ s.input.arrivals = b :: rest →
        (s.pos = 0#9 → b ≠ s.unitId → t.st = .rx ∧ t.pos = 0#9) ∧
        ((s.pos ≠ 0#9 ∨ b = s.unitId) →
          t.pos.toNat = s.pos.toNat + 1 ∧ (t.pos = t.exp → t.st = .check) ∧ (t.pos ≠ t.exp → t.st = .rx))) ∧
      (s.st = .rx → s.chan.fifo ++ s.input.arrivals = [] → s.wctr = s.timeout → t.st = .check) ∧
      (s.st = .rx → s.chan.fifo ++ s.input.arrivals = [] → s.wctr < s.timeout →
        t.st = .rx ∧ t.wctr = s.wctr + 1) ∧
      (s.st = .check → 1 < s.lat → t.st = .check ∧ t.lat = s.lat - 1) ∧
      (s.st = .check → s.lat = 1 → t.st = .idle))

/-- R145, R146: a step with `rst` asserted leaves the reset state, whatever the state was, with the channel untouched,
`BAUD` at `BAUD_RESET`, the four outputs that R145 names inactive in that cycle, and a host read answered from the state
held during it. -/
def Obligations.ResetStepLeavesTheResetState : Prop :=
  ∀ s : State, s.input.rst = true → ∃ t, step s = .next t ∧
    t.lastCmd = 0x00#8 ∧ t.status = 0x00#8 ∧ t.flags = 0x00#8 ∧ t.unitId = 0x00#8 ∧ t.addr = 0x0000#16 ∧
    t.val = 0x0000#16 ∧ t.txLen = 0x00#8 ∧ t.rxFc = 0x00#8 ∧ t.rxPayloadOff = 0x00#8 ∧ t.rxPayloadLen = 0x00#8 ∧
    classCode t.cls = 0x00#8 ∧ t.pos = 0#9 ∧ t.crcCalc = 0x0000#16 ∧ t.crcRecv = 0x0000#16 ∧
    t.baud = s.env.params.baudReset ∧ t.st = .idle ∧ t.op = 0x00#8 ∧ t.txi = 0x00#8 ∧ t.exp = 0#9 ∧ t.lat = 0 ∧
    t.wctr = 0 ∧ t.phase = .none ∧ t.pend = .none ∧ t.tmo = false ∧
    t.chan = s.beginCycle.chan ∧
    t.env.out.txValid = false ∧ t.env.out.rxPop = false ∧ t.env.out.rxFlush = false ∧ t.env.out.dir = false ∧
    (s.bus.re = true → t.env.out.hRdata = s.hostRead s.bus.addr)

/-- R121: the outputs of a cycle without reset, from the state held during it and the cycle's inputs (`rx_valid` and
`tx_empty` after this cycle's arrivals and departures), `rx_flush` where the phase bookkeeping of R69 and R70 holds, and
`h_rdata` in a host read. R127 (a), (d), (e): in every cycle, the channel's state after the step is what the outputs ask
for, and `rx_pop` and `rx_flush` are never both 1. -/
def Obligations.ChannelFollowsTheOutputs : Prop :=
  (∀ s t : State, s.input.rst = false → step s = .next t →
    t.env.out.txValid = decide (s.st = .tx) ∧
    t.env.out.txData = (if s.st = .tx then s.txByte s.txi.toNat else 0x00#8) ∧
    (t.env.out.rxPop = true ↔ s.st = .rx ∧ s.chan.fifo ++ s.input.arrivals ≠ []) ∧
    (s.phaseInv →
      (t.env.out.rxFlush = true ↔
        s.st = .stage ∧ s.lat = 1 ∧ s.phase = .xStart ∧ 2 ≤ s.txCount ∨
        s.st = .stage ∧ s.lat = 1 ∧ s.phase = .flush ∨
        s.st = .drain ∧ s.chan.unsent.drop s.input.left = [])) ∧
    t.env.out.dir = s.dir ∧ t.env.out.baud = s.baud ∧
    (s.bus.re = true → t.env.out.hRdata = s.hostRead s.bus.addr)) ∧
  (∀ s t : State, step s = .next t →
    t.chan.fifo =
      (if t.env.out.rxFlush then []
       else if t.env.out.rxPop then (s.chan.fifo ++ s.input.arrivals).tail
       else s.chan.fifo ++ s.input.arrivals) ∧
    t.chan.unsent =
      s.chan.unsent.drop s.input.left
        ++ (if t.env.out.txValid && s.input.txReady then [t.env.out.txData] else []) ∧
    t.chan.sent = s.chan.sent ++ s.chan.unsent.take s.input.left ∧
    ¬ (t.env.out.rxPop = true ∧ t.env.out.rxFlush = true))

/-- R34, R46: the operand registers of a busy block do not change, `TX_LEN` only at the end of a build phase; an idle
block's change by a host write only. -/
def Obligations.OperandRegistersAreTheHosts : Prop :=
  ∀ s t : State, s.input.rst = false → step s = .next t → (s.st ≠ .idle ∨ s.bus.we = false) →
    t.unitId = s.unitId ∧ t.addr = s.addr ∧ t.val = s.val ∧ t.baud = s.baud ∧
    (t.txLen = s.txLen ∨ s.st = .stage ∧ (s.phase = .bRead ∨ s.phase = .bWSingle ∨ s.phase = .bWMulti))

/-- R30: nothing but the acceptance of a byte in RX writes `RX_FRAME`, and only at `pos`; `TX_BUF` is written by a host
write or in STAGE only. -/
def Obligations.BufferWriters : Prop :=
  ∀ s t : State, s.input.rst = false → step s = .next t →
    (∀ i, i < 260 → t.rxByte i ≠ s.rxByte i → s.st = .rx ∧ i = s.pos.toNat) ∧
    (∀ i, i < 255 → t.txByte i ≠ s.txByte i → s.st = .stage ∨ s.st = .idle ∧ s.bus.we = true)

/-- R92, R97: what an exchange starts from does not depend on what an earlier one left in the result registers or in the
FIFO: two states that agree on the frame, its length and the control state agree after PH_XSTART on every result
register and on the frame sent. -/
def Obligations.ExchangeStartForgetsEarlierResults : Prop :=
  ∀ s s' t t' : State, s.st = .stage → s'.st = .stage → s.phase = .xStart → s'.phase = .xStart → s.lat ≤ 1 →
    s'.lat ≤ 1 → s.txLen = s'.txLen → s.txFrame = s'.txFrame → 2 ≤ s.txCount →
    exec .exchange s = .next t → exec .exchange s' = .next t' →
    t.txFrame = t'.txFrame ∧ t.rxFc = t'.rxFc ∧ t.pos = t'.pos ∧ t.exp = t'.exp ∧ t.cls = t'.cls ∧ t.tmo = t'.tmo ∧
    t.wctr = t'.wctr ∧ t.txi = t'.txi ∧ t.rxPayloadOff = t'.rxPayloadOff ∧ t.rxPayloadLen = t'.rxPayloadLen ∧
    t.crcCalc = t'.crcCalc ∧ t.crcRecv = t'.crcRecv ∧ t.crcMatch = t'.crcMatch ∧ t.dir = t'.dir ∧
    t.chan.fifo = t'.chan.fifo ∧ t.st = t'.st

/-! ### Invariants -/

/-- The invariant holds right after reset. -/
def Obligations.InvHoldsAtReset : Prop := State.reset.Inv

/-- Every step keeps the invariant, from every state that has it, a reset step included. -/
def Obligations.InvIsKeptByEveryStep : Prop := ∀ s t : State, s.Inv → step s = .next t → t.Inv

/-- Memory stays in canonical form, from every state in which it is. -/
def Obligations.MemoryStaysCanonical : Prop := ∀ s t : State, s.memInv → step s = .next t → t.memInv

/-- R96: `DIR` stays 1 exactly in TX and DRAIN. -/
def Obligations.DirectionFollowsTransmission : Prop := ∀ s t : State, s.dirInv → step s = .next t → t.dirInv

/-- R109, R106: the expected length, the class and `RX_FC` stay those the accepted bytes determine, and `RX_FRAME` never
overflows. -/
def Obligations.LengthInferenceStaysRight : Prop := ∀ s t : State, s.rxInv → step s = .next t → t.rxInv

/-- R18, R66: `STATUS` never holds a code the block does not write. -/
def Obligations.StatusStaysLegal : Prop := ∀ s t : State, s.statusInv → step s = .next t → t.statusInv
end

