-- ==== Sys2Proof/Laws/Bits.lean ====
section
/-! SUPPORT. The byte-order primitives: the halves of a joined value, and the lengths of the frame layouts. -/

namespace Sys2Proof

@[simp] theorem hi8_join (h l : Byte) : hi8 (join h l) = h := by
  unfold hi8 join
  ext i hi
  simp only [BitVec.getElem_extractLsb', BitVec.getLsbD_append]
  simp [hi, BitVec.getLsbD_eq_getElem]

@[simp] theorem lo8_join (h l : Byte) : lo8 (join h l) = l := by
  unfold lo8 join
  ext i hi
  simp only [BitVec.getElem_extractLsb', BitVec.getLsbD_append]
  simp [hi, BitVec.getLsbD_eq_getElem]

@[simp] theorem join_hi8_lo8 (v : Word) : join (hi8 v) (lo8 v) = v := by
  unfold hi8 lo8 join
  ext i hi
  simp only [BitVec.getElem_append, BitVec.getElem_extractLsb']
  split
  · simp [hi]
  · next h => simp [show 8 + (i - 8) = i by omega, hi]

/-- Two 16-bit values are equal when their halves are. -/
theorem word_ext {v w : Word} (hh : hi8 v = hi8 w) (hl : lo8 v = lo8 w) : v = w := by
  rw [← join_hi8_lo8 v, hh, hl, join_hi8_lo8]

@[simp] theorem len8_toNat (b : Byte) : len8 b.toNat = b := by simp [len8]

theorem toNat_len8 {n : Nat} (h : n < 256) : (len8 n).toNat = n := by
  simp [len8, Nat.mod_eq_of_lt h]

@[simp] theorem crcTail_length (c : Word) : (crcTail c).length = 2 := rfl

@[simp] theorem reqHeader_length (u fc : Byte) (a v : Word) : (reqHeader u fc a v).length = 6 := rfl

@[simp] theorem multiBody_length (u : Byte) (a n : Word) (d : List Byte) : (multiBody u a n d).length = 7 + d.length := by
  simp [multiBody]; omega

@[simp] theorem stamped_length (d : List Byte) : (stamped d).length = d.length + 2 := by simp [stamped]

/-- The CRC field of a frame that ends in `crcTail k` is `k` (R83). -/
theorem crcField_append_crcTail (d : List Byte) (k : Word) : crcField (d ++ crcTail k) = k := by
  have h1 : (d ++ crcTail k).length - 1 = d.length + 1 := by simp
  have h2 : (d ++ crcTail k).length - 2 = d.length := by simp
  rw [crcField, h1, h2]
  simp [crcTail, List.getD]

/-- The CRC of a frame's body (R83). -/
theorem crcBody_append_crcTail (d : List Byte) (k : Word) : crcBody (d ++ crcTail k) = crc16 d := by
  have h2 : (d ++ crcTail k).length - 2 = d.length := by simp
  rw [crcBody, h2, List.take_left]

end Sys2Proof
end

