-- ==== Sys2Proof/Laws/Decode.lean ====
section
/-! SUPPORT. The decoder: the format of what it gives, and that the encoder gives back the bytes it read. -/

namespace Sys2Proof

theorem decodeCommand_format (v : Byte) : (decodeCommand v).format = .cmd := by
  unfold decodeCommand
  repeat' split
  all_goals rfl

theorem encode_decodeCommand (v : Byte) : encode (decodeCommand v) = [v] := by
  unfold decodeCommand
  repeat' split
  all_goals simp_all [encode]

/-- The encoder gives back the bytes the decoder read, in every format. -/
theorem encode_of_decode {f : Format} {bs : List Byte} {i : Instr} (h : decode f bs = .ok i) :
    i.format = f ∧ encode i = bs := by
  cases f with
  | cmd =>
    match bs, h with
    | [v], h =>
      cases h
      exact ⟨decodeCommand_format v, encode_decodeCommand v⟩
  | wireReq =>
    match bs, h with
    | u :: fc :: rest, h =>
      simp only [decode, decodeRequest] at h
      split at h
      · next hf =>
        subst hf
        split at h
        · cases h; exact ⟨rfl, by simp [encode, reqHeader, crcTail]⟩
        · cases h
      split at h
      · next hf =>
        subst hf
        split at h
        · cases h; exact ⟨rfl, by simp [encode, reqHeader, crcTail]⟩
        · cases h
      split at h
      · next hf =>
        subst hf
        split at h
        · next a1 a0 n1 n0 bc tail =>
          split at h
          · cases h
          next hn =>
          split at h
          · cases h
          next hb =>
          split at h
          · next k0 k1 hk =>
            cases h
            refine ⟨rfl, ?_⟩
            have hb : bc = byteCount (join n1 n0) := by simpa using hb
            have := List.take_append_drop bc.toNat tail
            rw [hk] at this
            simp [encode, multiBody, reqHeader, crcTail, ← hb]
            exact this
          · cases h
        · cases h
      · cases h
  | wireRsp =>
    match bs, h with
    | u :: fc :: rest, h =>
      simp only [decode, decodeResponse] at h
      split at h
      · next hf =>
        subst hf
        split at h
        · next bc tail =>
          split at h
          · next k0 k1 hk =>
            cases h
            refine ⟨rfl, ?_⟩
            have h1 := List.take_append_drop bc.toNat tail
            have h2 := congrArg List.length hk
            simp at h2
            have h3 : (tail.take bc.toNat).length = bc.toNat := by simp; omega
            rw [hk] at h1
            simp only [encode, crcTail, hi8_join, lo8_join, h3, len8_toNat, h1]
          · cases h
        · cases h
      split at h
      · next hf =>
        subst hf
        split at h
        · cases h; exact ⟨rfl, by simp [encode, reqHeader, crcTail]⟩
        · cases h
      split at h
      · next hf =>
        subst hf
        split at h
        · cases h; exact ⟨rfl, by simp [encode, reqHeader, crcTail]⟩
        · cases h
      split at h
      · cases h; exact ⟨rfl, by simp [encode, crcTail]⟩
      · cases h; exact ⟨rfl, by simp [encode, crcTail]⟩
      · cases h

/-- A decoded error response has a function code that is none of the three valid ones (R62). -/
theorem decode_rspError {bs : List Byte} {u f : Byte} {c : List Byte} {k : Word}
    (h : decode .wireRsp bs = .ok (.rspError u f c k)) : validFunction f = false := by
  simp only [decode] at h
  unfold decodeResponse at h
  split at h
  · split at h
    · repeat' split at h
      all_goals cases h
    split at h
    · repeat' split at h
      all_goals cases h
    split at h
    · repeat' split at h
      all_goals cases h
    next h1 h2 h3 =>
    split at h <;> cases h <;> simp [validFunction, h1, h2, h3]
  · cases h

end Sys2Proof
end

