-- ==== Sys2Proof/Laws/State.lean ====
section
/-! SUPPORT. Field by field, what each named update of `State` leaves: one lemma per field per update, true by `rfl`. -/

namespace Sys2Proof.Machine

variable (s : State)

/-! ### `State.writeByte` -/

@[simp] theorem State.writeByte_lastCmd (a : Nat) (v : Byte) : (s.writeByte a v).lastCmd = s.lastCmd := rfl
@[simp] theorem State.writeByte_status (a : Nat) (v : Byte) : (s.writeByte a v).status = s.status := rfl
@[simp] theorem State.writeByte_unitId (a : Nat) (v : Byte) : (s.writeByte a v).unitId = s.unitId := rfl
@[simp] theorem State.writeByte_addr (a : Nat) (v : Byte) : (s.writeByte a v).addr = s.addr := rfl
@[simp] theorem State.writeByte_val (a : Nat) (v : Byte) : (s.writeByte a v).val = s.val := rfl
@[simp] theorem State.writeByte_txLen (a : Nat) (v : Byte) : (s.writeByte a v).txLen = s.txLen := rfl
@[simp] theorem State.writeByte_rxFc (a : Nat) (v : Byte) : (s.writeByte a v).rxFc = s.rxFc := rfl
@[simp] theorem State.writeByte_rxPayloadOff (a : Nat) (v : Byte) :
    (s.writeByte a v).rxPayloadOff = s.rxPayloadOff := rfl
@[simp] theorem State.writeByte_rxPayloadLen (a : Nat) (v : Byte) :
    (s.writeByte a v).rxPayloadLen = s.rxPayloadLen := rfl
@[simp] theorem State.writeByte_crcCalc (a : Nat) (v : Byte) : (s.writeByte a v).crcCalc = s.crcCalc := rfl
@[simp] theorem State.writeByte_crcRecv (a : Nat) (v : Byte) : (s.writeByte a v).crcRecv = s.crcRecv := rfl
@[simp] theorem State.writeByte_baud (a : Nat) (v : Byte) : (s.writeByte a v).baud = s.baud := rfl
@[simp] theorem State.writeByte_dir (a : Nat) (v : Byte) : (s.writeByte a v).dir = s.dir := rfl
@[simp] theorem State.writeByte_crcMatch (a : Nat) (v : Byte) : (s.writeByte a v).crcMatch = s.crcMatch := rfl
@[simp] theorem State.writeByte_mem (a : Nat) (v : Byte) : (s.writeByte a v).mem = s.mem.store a v := rfl
@[simp] theorem State.writeByte_st (a : Nat) (v : Byte) : (s.writeByte a v).st = s.st := rfl
@[simp] theorem State.writeByte_op (a : Nat) (v : Byte) : (s.writeByte a v).op = s.op := rfl
@[simp] theorem State.writeByte_phase (a : Nat) (v : Byte) : (s.writeByte a v).phase = s.phase := rfl
@[simp] theorem State.writeByte_lat (a : Nat) (v : Byte) : (s.writeByte a v).lat = s.lat := rfl
@[simp] theorem State.writeByte_txi (a : Nat) (v : Byte) : (s.writeByte a v).txi = s.txi := rfl
@[simp] theorem State.writeByte_pos (a : Nat) (v : Byte) : (s.writeByte a v).pos = s.pos := rfl
@[simp] theorem State.writeByte_exp (a : Nat) (v : Byte) : (s.writeByte a v).exp = s.exp := rfl
@[simp] theorem State.writeByte_cls (a : Nat) (v : Byte) : (s.writeByte a v).cls = s.cls := rfl
@[simp] theorem State.writeByte_wctr (a : Nat) (v : Byte) : (s.writeByte a v).wctr = s.wctr := rfl
@[simp] theorem State.writeByte_tmo (a : Nat) (v : Byte) : (s.writeByte a v).tmo = s.tmo := rfl
@[simp] theorem State.writeByte_pend (a : Nat) (v : Byte) : (s.writeByte a v).pend = s.pend := rfl
@[simp] theorem State.writeByte_chan (a : Nat) (v : Byte) : (s.writeByte a v).chan = s.chan := rfl
@[simp] theorem State.writeByte_env (a : Nat) (v : Byte) : (s.writeByte a v).env = s.env := rfl

/-! ### `State.writeBytes` -/

@[simp] theorem State.writeBytes_lastCmd (a : Nat) (bs : List Byte) : (s.writeBytes a bs).lastCmd = s.lastCmd := rfl
@[simp] theorem State.writeBytes_status (a : Nat) (bs : List Byte) : (s.writeBytes a bs).status = s.status := rfl
@[simp] theorem State.writeBytes_unitId (a : Nat) (bs : List Byte) : (s.writeBytes a bs).unitId = s.unitId := rfl
@[simp] theorem State.writeBytes_addr (a : Nat) (bs : List Byte) : (s.writeBytes a bs).addr = s.addr := rfl
@[simp] theorem State.writeBytes_val (a : Nat) (bs : List Byte) : (s.writeBytes a bs).val = s.val := rfl
@[simp] theorem State.writeBytes_txLen (a : Nat) (bs : List Byte) : (s.writeBytes a bs).txLen = s.txLen := rfl
@[simp] theorem State.writeBytes_rxFc (a : Nat) (bs : List Byte) : (s.writeBytes a bs).rxFc = s.rxFc := rfl
@[simp] theorem State.writeBytes_rxPayloadOff (a : Nat) (bs : List Byte) :
    (s.writeBytes a bs).rxPayloadOff = s.rxPayloadOff := rfl
@[simp] theorem State.writeBytes_rxPayloadLen (a : Nat) (bs : List Byte) :
    (s.writeBytes a bs).rxPayloadLen = s.rxPayloadLen := rfl
@[simp] theorem State.writeBytes_crcCalc (a : Nat) (bs : List Byte) : (s.writeBytes a bs).crcCalc = s.crcCalc := rfl
@[simp] theorem State.writeBytes_crcRecv (a : Nat) (bs : List Byte) : (s.writeBytes a bs).crcRecv = s.crcRecv := rfl
@[simp] theorem State.writeBytes_baud (a : Nat) (bs : List Byte) : (s.writeBytes a bs).baud = s.baud := rfl
@[simp] theorem State.writeBytes_dir (a : Nat) (bs : List Byte) : (s.writeBytes a bs).dir = s.dir := rfl
@[simp] theorem State.writeBytes_crcMatch (a : Nat) (bs : List Byte) : (s.writeBytes a bs).crcMatch = s.crcMatch := rfl
@[simp] theorem State.writeBytes_mem (a : Nat) (bs : List Byte) : (s.writeBytes a bs).mem = s.mem.storeAll a bs := rfl
@[simp] theorem State.writeBytes_st (a : Nat) (bs : List Byte) : (s.writeBytes a bs).st = s.st := rfl
@[simp] theorem State.writeBytes_op (a : Nat) (bs : List Byte) : (s.writeBytes a bs).op = s.op := rfl
@[simp] theorem State.writeBytes_phase (a : Nat) (bs : List Byte) : (s.writeBytes a bs).phase = s.phase := rfl
@[simp] theorem State.writeBytes_lat (a : Nat) (bs : List Byte) : (s.writeBytes a bs).lat = s.lat := rfl
@[simp] theorem State.writeBytes_txi (a : Nat) (bs : List Byte) : (s.writeBytes a bs).txi = s.txi := rfl
@[simp] theorem State.writeBytes_pos (a : Nat) (bs : List Byte) : (s.writeBytes a bs).pos = s.pos := rfl
@[simp] theorem State.writeBytes_exp (a : Nat) (bs : List Byte) : (s.writeBytes a bs).exp = s.exp := rfl
@[simp] theorem State.writeBytes_cls (a : Nat) (bs : List Byte) : (s.writeBytes a bs).cls = s.cls := rfl
@[simp] theorem State.writeBytes_wctr (a : Nat) (bs : List Byte) : (s.writeBytes a bs).wctr = s.wctr := rfl
@[simp] theorem State.writeBytes_tmo (a : Nat) (bs : List Byte) : (s.writeBytes a bs).tmo = s.tmo := rfl
@[simp] theorem State.writeBytes_pend (a : Nat) (bs : List Byte) : (s.writeBytes a bs).pend = s.pend := rfl
@[simp] theorem State.writeBytes_chan (a : Nat) (bs : List Byte) : (s.writeBytes a bs).chan = s.chan := rfl
@[simp] theorem State.writeBytes_env (a : Nat) (bs : List Byte) : (s.writeBytes a bs).env = s.env := rfl

/-! ### `State.writeTx` -/

@[simp] theorem State.writeTx_lastCmd (i : Nat) (bs : List Byte) : (s.writeTx i bs).lastCmd = s.lastCmd := rfl
@[simp] theorem State.writeTx_status (i : Nat) (bs : List Byte) : (s.writeTx i bs).status = s.status := rfl
@[simp] theorem State.writeTx_unitId (i : Nat) (bs : List Byte) : (s.writeTx i bs).unitId = s.unitId := rfl
@[simp] theorem State.writeTx_addr (i : Nat) (bs : List Byte) : (s.writeTx i bs).addr = s.addr := rfl
@[simp] theorem State.writeTx_val (i : Nat) (bs : List Byte) : (s.writeTx i bs).val = s.val := rfl
@[simp] theorem State.writeTx_txLen (i : Nat) (bs : List Byte) : (s.writeTx i bs).txLen = s.txLen := rfl
@[simp] theorem State.writeTx_rxFc (i : Nat) (bs : List Byte) : (s.writeTx i bs).rxFc = s.rxFc := rfl
@[simp] theorem State.writeTx_rxPayloadOff (i : Nat) (bs : List Byte) :
    (s.writeTx i bs).rxPayloadOff = s.rxPayloadOff := rfl
@[simp] theorem State.writeTx_rxPayloadLen (i : Nat) (bs : List Byte) :
    (s.writeTx i bs).rxPayloadLen = s.rxPayloadLen := rfl
@[simp] theorem State.writeTx_crcCalc (i : Nat) (bs : List Byte) : (s.writeTx i bs).crcCalc = s.crcCalc := rfl
@[simp] theorem State.writeTx_crcRecv (i : Nat) (bs : List Byte) : (s.writeTx i bs).crcRecv = s.crcRecv := rfl
@[simp] theorem State.writeTx_baud (i : Nat) (bs : List Byte) : (s.writeTx i bs).baud = s.baud := rfl
@[simp] theorem State.writeTx_dir (i : Nat) (bs : List Byte) : (s.writeTx i bs).dir = s.dir := rfl
@[simp] theorem State.writeTx_crcMatch (i : Nat) (bs : List Byte) : (s.writeTx i bs).crcMatch = s.crcMatch := rfl
@[simp] theorem State.writeTx_mem (i : Nat) (bs : List Byte) :
    (s.writeTx i bs).mem = s.mem.storeAll (txBase + i) bs := rfl
@[simp] theorem State.writeTx_st (i : Nat) (bs : List Byte) : (s.writeTx i bs).st = s.st := rfl
@[simp] theorem State.writeTx_op (i : Nat) (bs : List Byte) : (s.writeTx i bs).op = s.op := rfl
@[simp] theorem State.writeTx_phase (i : Nat) (bs : List Byte) : (s.writeTx i bs).phase = s.phase := rfl
@[simp] theorem State.writeTx_lat (i : Nat) (bs : List Byte) : (s.writeTx i bs).lat = s.lat := rfl
@[simp] theorem State.writeTx_txi (i : Nat) (bs : List Byte) : (s.writeTx i bs).txi = s.txi := rfl
@[simp] theorem State.writeTx_pos (i : Nat) (bs : List Byte) : (s.writeTx i bs).pos = s.pos := rfl
@[simp] theorem State.writeTx_exp (i : Nat) (bs : List Byte) : (s.writeTx i bs).exp = s.exp := rfl
@[simp] theorem State.writeTx_cls (i : Nat) (bs : List Byte) : (s.writeTx i bs).cls = s.cls := rfl
@[simp] theorem State.writeTx_wctr (i : Nat) (bs : List Byte) : (s.writeTx i bs).wctr = s.wctr := rfl
@[simp] theorem State.writeTx_tmo (i : Nat) (bs : List Byte) : (s.writeTx i bs).tmo = s.tmo := rfl
@[simp] theorem State.writeTx_pend (i : Nat) (bs : List Byte) : (s.writeTx i bs).pend = s.pend := rfl
@[simp] theorem State.writeTx_chan (i : Nat) (bs : List Byte) : (s.writeTx i bs).chan = s.chan := rfl
@[simp] theorem State.writeTx_env (i : Nat) (bs : List Byte) : (s.writeTx i bs).env = s.env := rfl

/-! ### `State.writeRx` -/

@[simp] theorem State.writeRx_lastCmd (i : Nat) (v : Byte) : (s.writeRx i v).lastCmd = s.lastCmd := rfl
@[simp] theorem State.writeRx_status (i : Nat) (v : Byte) : (s.writeRx i v).status = s.status := rfl
@[simp] theorem State.writeRx_unitId (i : Nat) (v : Byte) : (s.writeRx i v).unitId = s.unitId := rfl
@[simp] theorem State.writeRx_addr (i : Nat) (v : Byte) : (s.writeRx i v).addr = s.addr := rfl
@[simp] theorem State.writeRx_val (i : Nat) (v : Byte) : (s.writeRx i v).val = s.val := rfl
@[simp] theorem State.writeRx_txLen (i : Nat) (v : Byte) : (s.writeRx i v).txLen = s.txLen := rfl
@[simp] theorem State.writeRx_rxFc (i : Nat) (v : Byte) : (s.writeRx i v).rxFc = s.rxFc := rfl
@[simp] theorem State.writeRx_rxPayloadOff (i : Nat) (v : Byte) : (s.writeRx i v).rxPayloadOff = s.rxPayloadOff := rfl
@[simp] theorem State.writeRx_rxPayloadLen (i : Nat) (v : Byte) : (s.writeRx i v).rxPayloadLen = s.rxPayloadLen := rfl
@[simp] theorem State.writeRx_crcCalc (i : Nat) (v : Byte) : (s.writeRx i v).crcCalc = s.crcCalc := rfl
@[simp] theorem State.writeRx_crcRecv (i : Nat) (v : Byte) : (s.writeRx i v).crcRecv = s.crcRecv := rfl
@[simp] theorem State.writeRx_baud (i : Nat) (v : Byte) : (s.writeRx i v).baud = s.baud := rfl
@[simp] theorem State.writeRx_dir (i : Nat) (v : Byte) : (s.writeRx i v).dir = s.dir := rfl
@[simp] theorem State.writeRx_crcMatch (i : Nat) (v : Byte) : (s.writeRx i v).crcMatch = s.crcMatch := rfl
@[simp] theorem State.writeRx_mem (i : Nat) (v : Byte) : (s.writeRx i v).mem = s.mem.store (rxBase + i) v := rfl
@[simp] theorem State.writeRx_st (i : Nat) (v : Byte) : (s.writeRx i v).st = s.st := rfl
@[simp] theorem State.writeRx_op (i : Nat) (v : Byte) : (s.writeRx i v).op = s.op := rfl
@[simp] theorem State.writeRx_phase (i : Nat) (v : Byte) : (s.writeRx i v).phase = s.phase := rfl
@[simp] theorem State.writeRx_lat (i : Nat) (v : Byte) : (s.writeRx i v).lat = s.lat := rfl
@[simp] theorem State.writeRx_txi (i : Nat) (v : Byte) : (s.writeRx i v).txi = s.txi := rfl
@[simp] theorem State.writeRx_pos (i : Nat) (v : Byte) : (s.writeRx i v).pos = s.pos := rfl
@[simp] theorem State.writeRx_exp (i : Nat) (v : Byte) : (s.writeRx i v).exp = s.exp := rfl
@[simp] theorem State.writeRx_cls (i : Nat) (v : Byte) : (s.writeRx i v).cls = s.cls := rfl
@[simp] theorem State.writeRx_wctr (i : Nat) (v : Byte) : (s.writeRx i v).wctr = s.wctr := rfl
@[simp] theorem State.writeRx_tmo (i : Nat) (v : Byte) : (s.writeRx i v).tmo = s.tmo := rfl
@[simp] theorem State.writeRx_pend (i : Nat) (v : Byte) : (s.writeRx i v).pend = s.pend := rfl
@[simp] theorem State.writeRx_chan (i : Nat) (v : Byte) : (s.writeRx i v).chan = s.chan := rfl
@[simp] theorem State.writeRx_env (i : Nat) (v : Byte) : (s.writeRx i v).env = s.env := rfl

/-! ### `State.stampTx` -/

@[simp] theorem State.stampTx_lastCmd (n : Nat) (c : Word) : (s.stampTx n c).lastCmd = s.lastCmd := rfl
@[simp] theorem State.stampTx_status (n : Nat) (c : Word) : (s.stampTx n c).status = s.status := rfl
@[simp] theorem State.stampTx_unitId (n : Nat) (c : Word) : (s.stampTx n c).unitId = s.unitId := rfl
@[simp] theorem State.stampTx_addr (n : Nat) (c : Word) : (s.stampTx n c).addr = s.addr := rfl
@[simp] theorem State.stampTx_val (n : Nat) (c : Word) : (s.stampTx n c).val = s.val := rfl
@[simp] theorem State.stampTx_txLen (n : Nat) (c : Word) : (s.stampTx n c).txLen = s.txLen := rfl
@[simp] theorem State.stampTx_rxFc (n : Nat) (c : Word) : (s.stampTx n c).rxFc = s.rxFc := rfl
@[simp] theorem State.stampTx_rxPayloadOff (n : Nat) (c : Word) : (s.stampTx n c).rxPayloadOff = s.rxPayloadOff := rfl
@[simp] theorem State.stampTx_rxPayloadLen (n : Nat) (c : Word) : (s.stampTx n c).rxPayloadLen = s.rxPayloadLen := rfl
@[simp] theorem State.stampTx_crcCalc (n : Nat) (c : Word) : (s.stampTx n c).crcCalc = s.crcCalc := rfl
@[simp] theorem State.stampTx_crcRecv (n : Nat) (c : Word) : (s.stampTx n c).crcRecv = s.crcRecv := rfl
@[simp] theorem State.stampTx_baud (n : Nat) (c : Word) : (s.stampTx n c).baud = s.baud := rfl
@[simp] theorem State.stampTx_dir (n : Nat) (c : Word) : (s.stampTx n c).dir = s.dir := rfl
@[simp] theorem State.stampTx_crcMatch (n : Nat) (c : Word) : (s.stampTx n c).crcMatch = s.crcMatch := rfl
@[simp] theorem State.stampTx_mem (n : Nat) (c : Word) : (s.stampTx n c).mem = s.mem.storeAll (txBase + (n - 2))
    (crcTail c) := rfl
@[simp] theorem State.stampTx_st (n : Nat) (c : Word) : (s.stampTx n c).st = s.st := rfl
@[simp] theorem State.stampTx_op (n : Nat) (c : Word) : (s.stampTx n c).op = s.op := rfl
@[simp] theorem State.stampTx_phase (n : Nat) (c : Word) : (s.stampTx n c).phase = s.phase := rfl
@[simp] theorem State.stampTx_lat (n : Nat) (c : Word) : (s.stampTx n c).lat = s.lat := rfl
@[simp] theorem State.stampTx_txi (n : Nat) (c : Word) : (s.stampTx n c).txi = s.txi := rfl
@[simp] theorem State.stampTx_pos (n : Nat) (c : Word) : (s.stampTx n c).pos = s.pos := rfl
@[simp] theorem State.stampTx_exp (n : Nat) (c : Word) : (s.stampTx n c).exp = s.exp := rfl
@[simp] theorem State.stampTx_cls (n : Nat) (c : Word) : (s.stampTx n c).cls = s.cls := rfl
@[simp] theorem State.stampTx_wctr (n : Nat) (c : Word) : (s.stampTx n c).wctr = s.wctr := rfl
@[simp] theorem State.stampTx_tmo (n : Nat) (c : Word) : (s.stampTx n c).tmo = s.tmo := rfl
@[simp] theorem State.stampTx_pend (n : Nat) (c : Word) : (s.stampTx n c).pend = s.pend := rfl
@[simp] theorem State.stampTx_chan (n : Nat) (c : Word) : (s.stampTx n c).chan = s.chan := rfl
@[simp] theorem State.stampTx_env (n : Nat) (c : Word) : (s.stampTx n c).env = s.env := rfl

/-! ### `State.flushFifo` -/

@[simp] theorem State.flushFifo_lastCmd : (s.flushFifo).lastCmd = s.lastCmd := rfl
@[simp] theorem State.flushFifo_status : (s.flushFifo).status = s.status := rfl
@[simp] theorem State.flushFifo_unitId : (s.flushFifo).unitId = s.unitId := rfl
@[simp] theorem State.flushFifo_addr : (s.flushFifo).addr = s.addr := rfl
@[simp] theorem State.flushFifo_val : (s.flushFifo).val = s.val := rfl
@[simp] theorem State.flushFifo_txLen : (s.flushFifo).txLen = s.txLen := rfl
@[simp] theorem State.flushFifo_rxFc : (s.flushFifo).rxFc = s.rxFc := rfl
@[simp] theorem State.flushFifo_rxPayloadOff : (s.flushFifo).rxPayloadOff = s.rxPayloadOff := rfl
@[simp] theorem State.flushFifo_rxPayloadLen : (s.flushFifo).rxPayloadLen = s.rxPayloadLen := rfl
@[simp] theorem State.flushFifo_crcCalc : (s.flushFifo).crcCalc = s.crcCalc := rfl
@[simp] theorem State.flushFifo_crcRecv : (s.flushFifo).crcRecv = s.crcRecv := rfl
@[simp] theorem State.flushFifo_baud : (s.flushFifo).baud = s.baud := rfl
@[simp] theorem State.flushFifo_dir : (s.flushFifo).dir = s.dir := rfl
@[simp] theorem State.flushFifo_crcMatch : (s.flushFifo).crcMatch = s.crcMatch := rfl
@[simp] theorem State.flushFifo_mem : (s.flushFifo).mem = s.mem := rfl
@[simp] theorem State.flushFifo_st : (s.flushFifo).st = s.st := rfl
@[simp] theorem State.flushFifo_op : (s.flushFifo).op = s.op := rfl
@[simp] theorem State.flushFifo_phase : (s.flushFifo).phase = s.phase := rfl
@[simp] theorem State.flushFifo_lat : (s.flushFifo).lat = s.lat := rfl
@[simp] theorem State.flushFifo_txi : (s.flushFifo).txi = s.txi := rfl
@[simp] theorem State.flushFifo_pos : (s.flushFifo).pos = s.pos := rfl
@[simp] theorem State.flushFifo_exp : (s.flushFifo).exp = s.exp := rfl
@[simp] theorem State.flushFifo_cls : (s.flushFifo).cls = s.cls := rfl
@[simp] theorem State.flushFifo_wctr : (s.flushFifo).wctr = s.wctr := rfl
@[simp] theorem State.flushFifo_tmo : (s.flushFifo).tmo = s.tmo := rfl
@[simp] theorem State.flushFifo_pend : (s.flushFifo).pend = s.pend := rfl
@[simp] theorem State.flushFifo_chan : (s.flushFifo).chan = { s.chan with fifo := [] } := rfl
@[simp] theorem State.flushFifo_env : (s.flushFifo).env = s.env := rfl

/-! ### `State.popFifo` -/

@[simp] theorem State.popFifo_lastCmd : (s.popFifo).lastCmd = s.lastCmd := rfl
@[simp] theorem State.popFifo_status : (s.popFifo).status = s.status := rfl
@[simp] theorem State.popFifo_unitId : (s.popFifo).unitId = s.unitId := rfl
@[simp] theorem State.popFifo_addr : (s.popFifo).addr = s.addr := rfl
@[simp] theorem State.popFifo_val : (s.popFifo).val = s.val := rfl
@[simp] theorem State.popFifo_txLen : (s.popFifo).txLen = s.txLen := rfl
@[simp] theorem State.popFifo_rxFc : (s.popFifo).rxFc = s.rxFc := rfl
@[simp] theorem State.popFifo_rxPayloadOff : (s.popFifo).rxPayloadOff = s.rxPayloadOff := rfl
@[simp] theorem State.popFifo_rxPayloadLen : (s.popFifo).rxPayloadLen = s.rxPayloadLen := rfl
@[simp] theorem State.popFifo_crcCalc : (s.popFifo).crcCalc = s.crcCalc := rfl
@[simp] theorem State.popFifo_crcRecv : (s.popFifo).crcRecv = s.crcRecv := rfl
@[simp] theorem State.popFifo_baud : (s.popFifo).baud = s.baud := rfl
@[simp] theorem State.popFifo_dir : (s.popFifo).dir = s.dir := rfl
@[simp] theorem State.popFifo_crcMatch : (s.popFifo).crcMatch = s.crcMatch := rfl
@[simp] theorem State.popFifo_mem : (s.popFifo).mem = s.mem := rfl
@[simp] theorem State.popFifo_st : (s.popFifo).st = s.st := rfl
@[simp] theorem State.popFifo_op : (s.popFifo).op = s.op := rfl
@[simp] theorem State.popFifo_phase : (s.popFifo).phase = s.phase := rfl
@[simp] theorem State.popFifo_lat : (s.popFifo).lat = s.lat := rfl
@[simp] theorem State.popFifo_txi : (s.popFifo).txi = s.txi := rfl
@[simp] theorem State.popFifo_pos : (s.popFifo).pos = s.pos := rfl
@[simp] theorem State.popFifo_exp : (s.popFifo).exp = s.exp := rfl
@[simp] theorem State.popFifo_cls : (s.popFifo).cls = s.cls := rfl
@[simp] theorem State.popFifo_wctr : (s.popFifo).wctr = 0 := rfl
@[simp] theorem State.popFifo_tmo : (s.popFifo).tmo = s.tmo := rfl
@[simp] theorem State.popFifo_pend : (s.popFifo).pend = s.pend := rfl
@[simp] theorem State.popFifo_chan : (s.popFifo).chan = { s.chan with fifo := s.chan.fifo.tail } := rfl
@[simp] theorem State.popFifo_env : (s.popFifo).env = s.env := rfl

/-! ### `State.handOver` -/

@[simp] theorem State.handOver_lastCmd (b : Byte) : (s.handOver b).lastCmd = s.lastCmd := rfl
@[simp] theorem State.handOver_status (b : Byte) : (s.handOver b).status = s.status := rfl
@[simp] theorem State.handOver_unitId (b : Byte) : (s.handOver b).unitId = s.unitId := rfl
@[simp] theorem State.handOver_addr (b : Byte) : (s.handOver b).addr = s.addr := rfl
@[simp] theorem State.handOver_val (b : Byte) : (s.handOver b).val = s.val := rfl
@[simp] theorem State.handOver_txLen (b : Byte) : (s.handOver b).txLen = s.txLen := rfl
@[simp] theorem State.handOver_rxFc (b : Byte) : (s.handOver b).rxFc = s.rxFc := rfl
@[simp] theorem State.handOver_rxPayloadOff (b : Byte) : (s.handOver b).rxPayloadOff = s.rxPayloadOff := rfl
@[simp] theorem State.handOver_rxPayloadLen (b : Byte) : (s.handOver b).rxPayloadLen = s.rxPayloadLen := rfl
@[simp] theorem State.handOver_crcCalc (b : Byte) : (s.handOver b).crcCalc = s.crcCalc := rfl
@[simp] theorem State.handOver_crcRecv (b : Byte) : (s.handOver b).crcRecv = s.crcRecv := rfl
@[simp] theorem State.handOver_baud (b : Byte) : (s.handOver b).baud = s.baud := rfl
@[simp] theorem State.handOver_dir (b : Byte) : (s.handOver b).dir = s.dir := rfl
@[simp] theorem State.handOver_crcMatch (b : Byte) : (s.handOver b).crcMatch = s.crcMatch := rfl
@[simp] theorem State.handOver_mem (b : Byte) : (s.handOver b).mem = s.mem := rfl
@[simp] theorem State.handOver_st (b : Byte) : (s.handOver b).st = s.st := rfl
@[simp] theorem State.handOver_op (b : Byte) : (s.handOver b).op = s.op := rfl
@[simp] theorem State.handOver_phase (b : Byte) : (s.handOver b).phase = s.phase := rfl
@[simp] theorem State.handOver_lat (b : Byte) : (s.handOver b).lat = s.lat := rfl
@[simp] theorem State.handOver_txi (b : Byte) : (s.handOver b).txi = s.txi := rfl
@[simp] theorem State.handOver_pos (b : Byte) : (s.handOver b).pos = s.pos := rfl
@[simp] theorem State.handOver_exp (b : Byte) : (s.handOver b).exp = s.exp := rfl
@[simp] theorem State.handOver_cls (b : Byte) : (s.handOver b).cls = s.cls := rfl
@[simp] theorem State.handOver_wctr (b : Byte) : (s.handOver b).wctr = s.wctr := rfl
@[simp] theorem State.handOver_tmo (b : Byte) : (s.handOver b).tmo = s.tmo := rfl
@[simp] theorem State.handOver_pend (b : Byte) : (s.handOver b).pend = s.pend := rfl
@[simp] theorem State.handOver_chan (b : Byte) :
    (s.handOver b).chan = { s.chan with unsent := s.chan.unsent ++ [b] } := rfl
@[simp] theorem State.handOver_env (b : Byte) : (s.handOver b).env = s.env := rfl

/-! ### `State.accept` -/

@[simp] theorem State.accept_lastCmd (v : Byte) (ph : Phase) (pd : Pend) : (s.accept v ph pd).lastCmd = v := rfl
@[simp] theorem State.accept_status (v : Byte) (ph : Phase) (pd : Pend) : (s.accept v ph pd).status = s.status := rfl
@[simp] theorem State.accept_unitId (v : Byte) (ph : Phase) (pd : Pend) : (s.accept v ph pd).unitId = s.unitId := rfl
@[simp] theorem State.accept_addr (v : Byte) (ph : Phase) (pd : Pend) : (s.accept v ph pd).addr = s.addr := rfl
@[simp] theorem State.accept_val (v : Byte) (ph : Phase) (pd : Pend) : (s.accept v ph pd).val = s.val := rfl
@[simp] theorem State.accept_txLen (v : Byte) (ph : Phase) (pd : Pend) : (s.accept v ph pd).txLen = s.txLen := rfl
@[simp] theorem State.accept_rxFc (v : Byte) (ph : Phase) (pd : Pend) : (s.accept v ph pd).rxFc = s.rxFc := rfl
@[simp] theorem State.accept_rxPayloadOff (v : Byte) (ph : Phase) (pd : Pend) :
    (s.accept v ph pd).rxPayloadOff = s.rxPayloadOff := rfl
@[simp] theorem State.accept_rxPayloadLen (v : Byte) (ph : Phase) (pd : Pend) :
    (s.accept v ph pd).rxPayloadLen = s.rxPayloadLen := rfl
@[simp] theorem State.accept_crcCalc (v : Byte) (ph : Phase) (pd : Pend) : (s.accept v ph pd).crcCalc = s.crcCalc := rfl
@[simp] theorem State.accept_crcRecv (v : Byte) (ph : Phase) (pd : Pend) : (s.accept v ph pd).crcRecv = s.crcRecv := rfl
@[simp] theorem State.accept_baud (v : Byte) (ph : Phase) (pd : Pend) : (s.accept v ph pd).baud = s.baud := rfl
@[simp] theorem State.accept_dir (v : Byte) (ph : Phase) (pd : Pend) : (s.accept v ph pd).dir = s.dir := rfl
@[simp] theorem State.accept_crcMatch (v : Byte) (ph : Phase) (pd : Pend) :
    (s.accept v ph pd).crcMatch = s.crcMatch := rfl
@[simp] theorem State.accept_mem (v : Byte) (ph : Phase) (pd : Pend) : (s.accept v ph pd).mem = s.mem := rfl
@[simp] theorem State.accept_st (v : Byte) (ph : Phase) (pd : Pend) : (s.accept v ph pd).st = .stage := rfl
@[simp] theorem State.accept_op (v : Byte) (ph : Phase) (pd : Pend) : (s.accept v ph pd).op = v := rfl
@[simp] theorem State.accept_phase (v : Byte) (ph : Phase) (pd : Pend) : (s.accept v ph pd).phase = ph := rfl
@[simp] theorem State.accept_lat (v : Byte) (ph : Phase) (pd : Pend) : (s.accept v ph pd).lat = s.drawLat := rfl
@[simp] theorem State.accept_txi (v : Byte) (ph : Phase) (pd : Pend) : (s.accept v ph pd).txi = s.txi := rfl
@[simp] theorem State.accept_pos (v : Byte) (ph : Phase) (pd : Pend) : (s.accept v ph pd).pos = s.pos := rfl
@[simp] theorem State.accept_exp (v : Byte) (ph : Phase) (pd : Pend) : (s.accept v ph pd).exp = s.exp := rfl
@[simp] theorem State.accept_cls (v : Byte) (ph : Phase) (pd : Pend) : (s.accept v ph pd).cls = s.cls := rfl
@[simp] theorem State.accept_wctr (v : Byte) (ph : Phase) (pd : Pend) : (s.accept v ph pd).wctr = s.wctr := rfl
@[simp] theorem State.accept_tmo (v : Byte) (ph : Phase) (pd : Pend) : (s.accept v ph pd).tmo = s.tmo := rfl
@[simp] theorem State.accept_pend (v : Byte) (ph : Phase) (pd : Pend) : (s.accept v ph pd).pend = pd := rfl
@[simp] theorem State.accept_chan (v : Byte) (ph : Phase) (pd : Pend) : (s.accept v ph pd).chan = s.chan := rfl
@[simp] theorem State.accept_env (v : Byte) (ph : Phase) (pd : Pend) : (s.accept v ph pd).env = s.env := rfl

/-! ### `State.finish` -/

@[simp] theorem State.finish_lastCmd (r : Status) : (s.finish r).lastCmd = s.lastCmd := rfl
@[simp] theorem State.finish_status (r : Status) : (s.finish r).status = statusCode r := rfl
@[simp] theorem State.finish_unitId (r : Status) : (s.finish r).unitId = s.unitId := rfl
@[simp] theorem State.finish_addr (r : Status) : (s.finish r).addr = s.addr := rfl
@[simp] theorem State.finish_val (r : Status) : (s.finish r).val = s.val := rfl
@[simp] theorem State.finish_txLen (r : Status) : (s.finish r).txLen = s.txLen := rfl
@[simp] theorem State.finish_rxFc (r : Status) : (s.finish r).rxFc = s.rxFc := rfl
@[simp] theorem State.finish_rxPayloadOff (r : Status) : (s.finish r).rxPayloadOff = s.rxPayloadOff := rfl
@[simp] theorem State.finish_rxPayloadLen (r : Status) : (s.finish r).rxPayloadLen = s.rxPayloadLen := rfl
@[simp] theorem State.finish_crcCalc (r : Status) : (s.finish r).crcCalc = s.crcCalc := rfl
@[simp] theorem State.finish_crcRecv (r : Status) : (s.finish r).crcRecv = s.crcRecv := rfl
@[simp] theorem State.finish_baud (r : Status) : (s.finish r).baud = s.baud := rfl
@[simp] theorem State.finish_dir (r : Status) : (s.finish r).dir = s.dir := rfl
@[simp] theorem State.finish_crcMatch (r : Status) : (s.finish r).crcMatch = s.crcMatch := rfl
@[simp] theorem State.finish_mem (r : Status) : (s.finish r).mem = s.mem := rfl
@[simp] theorem State.finish_st (r : Status) : (s.finish r).st = .idle := rfl
@[simp] theorem State.finish_op (r : Status) : (s.finish r).op = s.op := rfl
@[simp] theorem State.finish_phase (r : Status) : (s.finish r).phase = .none := rfl
@[simp] theorem State.finish_lat (r : Status) : (s.finish r).lat = 0 := rfl
@[simp] theorem State.finish_txi (r : Status) : (s.finish r).txi = s.txi := rfl
@[simp] theorem State.finish_pos (r : Status) : (s.finish r).pos = s.pos := rfl
@[simp] theorem State.finish_exp (r : Status) : (s.finish r).exp = s.exp := rfl
@[simp] theorem State.finish_cls (r : Status) : (s.finish r).cls = s.cls := rfl
@[simp] theorem State.finish_wctr (r : Status) : (s.finish r).wctr = s.wctr := rfl
@[simp] theorem State.finish_tmo (r : Status) : (s.finish r).tmo = s.tmo := rfl
@[simp] theorem State.finish_pend (r : Status) : (s.finish r).pend = .none := rfl
@[simp] theorem State.finish_chan (r : Status) : (s.finish r).chan = s.chan := rfl
@[simp] theorem State.finish_env (r : Status) : (s.finish r).env = s.env := rfl

/-! ### `State.clearResult` -/

@[simp] theorem State.clearResult_lastCmd : (s.clearResult).lastCmd = s.lastCmd := rfl
@[simp] theorem State.clearResult_status : (s.clearResult).status = s.status := rfl
@[simp] theorem State.clearResult_unitId : (s.clearResult).unitId = s.unitId := rfl
@[simp] theorem State.clearResult_addr : (s.clearResult).addr = s.addr := rfl
@[simp] theorem State.clearResult_val : (s.clearResult).val = s.val := rfl
@[simp] theorem State.clearResult_txLen : (s.clearResult).txLen = s.txLen := rfl
@[simp] theorem State.clearResult_rxFc : (s.clearResult).rxFc = 0x00#8 := rfl
@[simp] theorem State.clearResult_rxPayloadOff : (s.clearResult).rxPayloadOff = 0x00#8 := rfl
@[simp] theorem State.clearResult_rxPayloadLen : (s.clearResult).rxPayloadLen = 0x00#8 := rfl
@[simp] theorem State.clearResult_crcCalc : (s.clearResult).crcCalc = 0x0000#16 := rfl
@[simp] theorem State.clearResult_crcRecv : (s.clearResult).crcRecv = 0x0000#16 := rfl
@[simp] theorem State.clearResult_baud : (s.clearResult).baud = s.baud := rfl
@[simp] theorem State.clearResult_dir : (s.clearResult).dir = s.dir := rfl
@[simp] theorem State.clearResult_crcMatch : (s.clearResult).crcMatch = false := rfl
@[simp] theorem State.clearResult_mem : (s.clearResult).mem = s.mem := rfl
@[simp] theorem State.clearResult_st : (s.clearResult).st = s.st := rfl
@[simp] theorem State.clearResult_op : (s.clearResult).op = s.op := rfl
@[simp] theorem State.clearResult_phase : (s.clearResult).phase = s.phase := rfl
@[simp] theorem State.clearResult_lat : (s.clearResult).lat = s.lat := rfl
@[simp] theorem State.clearResult_txi : (s.clearResult).txi = 0x00#8 := rfl
@[simp] theorem State.clearResult_pos : (s.clearResult).pos = 0#9 := rfl
@[simp] theorem State.clearResult_exp : (s.clearResult).exp = BitVec.ofNat 9 floorLen := rfl
@[simp] theorem State.clearResult_cls : (s.clearResult).cls = .none := rfl
@[simp] theorem State.clearResult_wctr : (s.clearResult).wctr = 0 := rfl
@[simp] theorem State.clearResult_tmo : (s.clearResult).tmo = false := rfl
@[simp] theorem State.clearResult_pend : (s.clearResult).pend = s.pend := rfl
@[simp] theorem State.clearResult_chan : (s.clearResult).chan = s.chan := rfl
@[simp] theorem State.clearResult_env : (s.clearResult).env = s.env := rfl

/-! ### `State.storeByte` -/

@[simp] theorem State.storeByte_lastCmd (b : Byte) : (s.storeByte b).lastCmd = s.lastCmd := rfl
@[simp] theorem State.storeByte_status (b : Byte) : (s.storeByte b).status = s.status := rfl
@[simp] theorem State.storeByte_unitId (b : Byte) : (s.storeByte b).unitId = s.unitId := rfl
@[simp] theorem State.storeByte_addr (b : Byte) : (s.storeByte b).addr = s.addr := rfl
@[simp] theorem State.storeByte_val (b : Byte) : (s.storeByte b).val = s.val := rfl
@[simp] theorem State.storeByte_txLen (b : Byte) : (s.storeByte b).txLen = s.txLen := rfl
@[simp] theorem State.storeByte_rxFc (b : Byte) : (s.storeByte b).rxFc = s.rxFcAfter b := rfl
@[simp] theorem State.storeByte_rxPayloadOff (b : Byte) : (s.storeByte b).rxPayloadOff = s.rxPayloadOff := rfl
@[simp] theorem State.storeByte_rxPayloadLen (b : Byte) : (s.storeByte b).rxPayloadLen = s.rxPayloadLen := rfl
@[simp] theorem State.storeByte_crcCalc (b : Byte) : (s.storeByte b).crcCalc = s.crcCalc := rfl
@[simp] theorem State.storeByte_crcRecv (b : Byte) : (s.storeByte b).crcRecv = s.crcRecv := rfl
@[simp] theorem State.storeByte_baud (b : Byte) : (s.storeByte b).baud = s.baud := rfl
@[simp] theorem State.storeByte_dir (b : Byte) : (s.storeByte b).dir = s.dir := rfl
@[simp] theorem State.storeByte_crcMatch (b : Byte) : (s.storeByte b).crcMatch = s.crcMatch := rfl
@[simp] theorem State.storeByte_mem (b : Byte) : (s.storeByte b).mem = s.mem.store (rxBase + s.pos.toNat) b := rfl
@[simp] theorem State.storeByte_st (b : Byte) : (s.storeByte b).st = s.st := rfl
@[simp] theorem State.storeByte_op (b : Byte) : (s.storeByte b).op = s.op := rfl
@[simp] theorem State.storeByte_phase (b : Byte) : (s.storeByte b).phase = s.phase := rfl
@[simp] theorem State.storeByte_lat (b : Byte) : (s.storeByte b).lat = s.lat := rfl
@[simp] theorem State.storeByte_txi (b : Byte) : (s.storeByte b).txi = s.txi := rfl
@[simp] theorem State.storeByte_pos (b : Byte) : (s.storeByte b).pos = s.pos + 1 := rfl
@[simp] theorem State.storeByte_exp (b : Byte) : (s.storeByte b).exp = s.expAfter b := rfl
@[simp] theorem State.storeByte_cls (b : Byte) : (s.storeByte b).cls = s.clsAfter b := rfl
@[simp] theorem State.storeByte_wctr (b : Byte) : (s.storeByte b).wctr = s.wctr := rfl
@[simp] theorem State.storeByte_tmo (b : Byte) : (s.storeByte b).tmo = s.tmo := rfl
@[simp] theorem State.storeByte_pend (b : Byte) : (s.storeByte b).pend = s.pend := rfl
@[simp] theorem State.storeByte_chan (b : Byte) : (s.storeByte b).chan = s.chan := rfl
@[simp] theorem State.storeByte_env (b : Byte) : (s.storeByte b).env = s.env := rfl

/-! ### `State.enterCheck` -/

@[simp] theorem State.enterCheck_lastCmd : (s.enterCheck).lastCmd = s.lastCmd := rfl
@[simp] theorem State.enterCheck_status : (s.enterCheck).status = s.status := rfl
@[simp] theorem State.enterCheck_unitId : (s.enterCheck).unitId = s.unitId := rfl
@[simp] theorem State.enterCheck_addr : (s.enterCheck).addr = s.addr := rfl
@[simp] theorem State.enterCheck_val : (s.enterCheck).val = s.val := rfl
@[simp] theorem State.enterCheck_txLen : (s.enterCheck).txLen = s.txLen := rfl
@[simp] theorem State.enterCheck_rxFc : (s.enterCheck).rxFc = s.rxFc := rfl
@[simp] theorem State.enterCheck_rxPayloadOff : (s.enterCheck).rxPayloadOff = s.rxPayloadOff := rfl
@[simp] theorem State.enterCheck_rxPayloadLen : (s.enterCheck).rxPayloadLen = s.rxPayloadLen := rfl
@[simp] theorem State.enterCheck_crcCalc : (s.enterCheck).crcCalc = s.crcCalc := rfl
@[simp] theorem State.enterCheck_crcRecv : (s.enterCheck).crcRecv = s.crcRecv := rfl
@[simp] theorem State.enterCheck_baud : (s.enterCheck).baud = s.baud := rfl
@[simp] theorem State.enterCheck_dir : (s.enterCheck).dir = s.dir := rfl
@[simp] theorem State.enterCheck_crcMatch : (s.enterCheck).crcMatch = s.crcMatch := rfl
@[simp] theorem State.enterCheck_mem : (s.enterCheck).mem = s.mem := rfl
@[simp] theorem State.enterCheck_st : (s.enterCheck).st = .check := rfl
@[simp] theorem State.enterCheck_op : (s.enterCheck).op = s.op := rfl
@[simp] theorem State.enterCheck_phase : (s.enterCheck).phase = s.phase := rfl
@[simp] theorem State.enterCheck_lat : (s.enterCheck).lat = s.drawLat := rfl
@[simp] theorem State.enterCheck_txi : (s.enterCheck).txi = s.txi := rfl
@[simp] theorem State.enterCheck_pos : (s.enterCheck).pos = s.pos := rfl
@[simp] theorem State.enterCheck_exp : (s.enterCheck).exp = s.exp := rfl
@[simp] theorem State.enterCheck_cls : (s.enterCheck).cls = s.cls := rfl
@[simp] theorem State.enterCheck_wctr : (s.enterCheck).wctr = s.wctr := rfl
@[simp] theorem State.enterCheck_tmo : (s.enterCheck).tmo = s.tmo := rfl
@[simp] theorem State.enterCheck_pend : (s.enterCheck).pend = s.pend := rfl
@[simp] theorem State.enterCheck_chan : (s.enterCheck).chan = s.chan := rfl
@[simp] theorem State.enterCheck_env : (s.enterCheck).env = s.env := rfl

/-! ### `State.resetEdge` -/

@[simp] theorem State.resetEdge_lastCmd : (s.resetEdge).lastCmd = State.reset.lastCmd := rfl
@[simp] theorem State.resetEdge_status : (s.resetEdge).status = State.reset.status := rfl
@[simp] theorem State.resetEdge_unitId : (s.resetEdge).unitId = State.reset.unitId := rfl
@[simp] theorem State.resetEdge_addr : (s.resetEdge).addr = State.reset.addr := rfl
@[simp] theorem State.resetEdge_val : (s.resetEdge).val = State.reset.val := rfl
@[simp] theorem State.resetEdge_txLen : (s.resetEdge).txLen = State.reset.txLen := rfl
@[simp] theorem State.resetEdge_rxFc : (s.resetEdge).rxFc = State.reset.rxFc := rfl
@[simp] theorem State.resetEdge_rxPayloadOff : (s.resetEdge).rxPayloadOff = State.reset.rxPayloadOff := rfl
@[simp] theorem State.resetEdge_rxPayloadLen : (s.resetEdge).rxPayloadLen = State.reset.rxPayloadLen := rfl
@[simp] theorem State.resetEdge_crcCalc : (s.resetEdge).crcCalc = State.reset.crcCalc := rfl
@[simp] theorem State.resetEdge_crcRecv : (s.resetEdge).crcRecv = State.reset.crcRecv := rfl
@[simp] theorem State.resetEdge_baud : (s.resetEdge).baud = s.env.params.baudReset := rfl
@[simp] theorem State.resetEdge_dir : (s.resetEdge).dir = State.reset.dir := rfl
@[simp] theorem State.resetEdge_crcMatch : (s.resetEdge).crcMatch = State.reset.crcMatch := rfl
@[simp] theorem State.resetEdge_mem : (s.resetEdge).mem = State.reset.mem := rfl
@[simp] theorem State.resetEdge_st : (s.resetEdge).st = State.reset.st := rfl
@[simp] theorem State.resetEdge_op : (s.resetEdge).op = State.reset.op := rfl
@[simp] theorem State.resetEdge_phase : (s.resetEdge).phase = State.reset.phase := rfl
@[simp] theorem State.resetEdge_lat : (s.resetEdge).lat = State.reset.lat := rfl
@[simp] theorem State.resetEdge_txi : (s.resetEdge).txi = State.reset.txi := rfl
@[simp] theorem State.resetEdge_pos : (s.resetEdge).pos = State.reset.pos := rfl
@[simp] theorem State.resetEdge_exp : (s.resetEdge).exp = State.reset.exp := rfl
@[simp] theorem State.resetEdge_cls : (s.resetEdge).cls = State.reset.cls := rfl
@[simp] theorem State.resetEdge_wctr : (s.resetEdge).wctr = State.reset.wctr := rfl
@[simp] theorem State.resetEdge_tmo : (s.resetEdge).tmo = State.reset.tmo := rfl
@[simp] theorem State.resetEdge_pend : (s.resetEdge).pend = State.reset.pend := rfl
@[simp] theorem State.resetEdge_chan : (s.resetEdge).chan = s.chan := rfl
@[simp] theorem State.resetEdge_env : (s.resetEdge).env = { s.env with resets := s.env.resets + 1 } := rfl

/-! ### `State.beginCycle` and `State.endCycle` -/

@[simp] theorem State.beginCycle_lastCmd : s.beginCycle.lastCmd = s.lastCmd := rfl
@[simp] theorem State.beginCycle_status : s.beginCycle.status = s.status := rfl
@[simp] theorem State.beginCycle_unitId : s.beginCycle.unitId = s.unitId := rfl
@[simp] theorem State.beginCycle_addr : s.beginCycle.addr = s.addr := rfl
@[simp] theorem State.beginCycle_val : s.beginCycle.val = s.val := rfl
@[simp] theorem State.beginCycle_txLen : s.beginCycle.txLen = s.txLen := rfl
@[simp] theorem State.beginCycle_rxFc : s.beginCycle.rxFc = s.rxFc := rfl
@[simp] theorem State.beginCycle_rxPayloadOff : s.beginCycle.rxPayloadOff = s.rxPayloadOff := rfl
@[simp] theorem State.beginCycle_rxPayloadLen : s.beginCycle.rxPayloadLen = s.rxPayloadLen := rfl
@[simp] theorem State.beginCycle_crcCalc : s.beginCycle.crcCalc = s.crcCalc := rfl
@[simp] theorem State.beginCycle_crcRecv : s.beginCycle.crcRecv = s.crcRecv := rfl
@[simp] theorem State.beginCycle_baud : s.beginCycle.baud = s.baud := rfl
@[simp] theorem State.beginCycle_dir : s.beginCycle.dir = s.dir := rfl
@[simp] theorem State.beginCycle_crcMatch : s.beginCycle.crcMatch = s.crcMatch := rfl
@[simp] theorem State.beginCycle_mem : s.beginCycle.mem = s.mem := rfl
@[simp] theorem State.beginCycle_st : s.beginCycle.st = s.st := rfl
@[simp] theorem State.beginCycle_op : s.beginCycle.op = s.op := rfl
@[simp] theorem State.beginCycle_phase : s.beginCycle.phase = s.phase := rfl
@[simp] theorem State.beginCycle_lat : s.beginCycle.lat = s.lat := rfl
@[simp] theorem State.beginCycle_txi : s.beginCycle.txi = s.txi := rfl
@[simp] theorem State.beginCycle_pos : s.beginCycle.pos = s.pos := rfl
@[simp] theorem State.beginCycle_exp : s.beginCycle.exp = s.exp := rfl
@[simp] theorem State.beginCycle_cls : s.beginCycle.cls = s.cls := rfl
@[simp] theorem State.beginCycle_wctr : s.beginCycle.wctr = s.wctr := rfl
@[simp] theorem State.beginCycle_tmo : s.beginCycle.tmo = s.tmo := rfl
@[simp] theorem State.beginCycle_pend : s.beginCycle.pend = s.pend := rfl
@[simp] theorem State.beginCycle_env : s.beginCycle.env = s.env := rfl
@[simp] theorem State.beginCycle_fifo : s.beginCycle.chan.fifo = s.chan.fifo ++ s.input.arrivals := rfl
@[simp] theorem State.beginCycle_unsent : s.beginCycle.chan.unsent = s.chan.unsent.drop s.input.left := rfl
@[simp] theorem State.beginCycle_sent :
    s.beginCycle.chan.sent = s.chan.sent ++ s.chan.unsent.take s.input.left := rfl
@[simp] theorem State.endCycle_lastCmd (held : State) : (held.endCycle s).lastCmd = s.lastCmd := rfl
@[simp] theorem State.endCycle_status (held : State) : (held.endCycle s).status = s.status := rfl
@[simp] theorem State.endCycle_unitId (held : State) : (held.endCycle s).unitId = s.unitId := rfl
@[simp] theorem State.endCycle_addr (held : State) : (held.endCycle s).addr = s.addr := rfl
@[simp] theorem State.endCycle_val (held : State) : (held.endCycle s).val = s.val := rfl
@[simp] theorem State.endCycle_txLen (held : State) : (held.endCycle s).txLen = s.txLen := rfl
@[simp] theorem State.endCycle_rxFc (held : State) : (held.endCycle s).rxFc = s.rxFc := rfl
@[simp] theorem State.endCycle_rxPayloadOff (held : State) : (held.endCycle s).rxPayloadOff = s.rxPayloadOff := rfl
@[simp] theorem State.endCycle_rxPayloadLen (held : State) : (held.endCycle s).rxPayloadLen = s.rxPayloadLen := rfl
@[simp] theorem State.endCycle_crcCalc (held : State) : (held.endCycle s).crcCalc = s.crcCalc := rfl
@[simp] theorem State.endCycle_crcRecv (held : State) : (held.endCycle s).crcRecv = s.crcRecv := rfl
@[simp] theorem State.endCycle_baud (held : State) : (held.endCycle s).baud = s.baud := rfl
@[simp] theorem State.endCycle_dir (held : State) : (held.endCycle s).dir = s.dir := rfl
@[simp] theorem State.endCycle_crcMatch (held : State) : (held.endCycle s).crcMatch = s.crcMatch := rfl
@[simp] theorem State.endCycle_mem (held : State) : (held.endCycle s).mem = s.mem := rfl
@[simp] theorem State.endCycle_st (held : State) : (held.endCycle s).st = s.st := rfl
@[simp] theorem State.endCycle_op (held : State) : (held.endCycle s).op = s.op := rfl
@[simp] theorem State.endCycle_phase (held : State) : (held.endCycle s).phase = s.phase := rfl
@[simp] theorem State.endCycle_lat (held : State) : (held.endCycle s).lat = s.lat := rfl
@[simp] theorem State.endCycle_txi (held : State) : (held.endCycle s).txi = s.txi := rfl
@[simp] theorem State.endCycle_pos (held : State) : (held.endCycle s).pos = s.pos := rfl
@[simp] theorem State.endCycle_exp (held : State) : (held.endCycle s).exp = s.exp := rfl
@[simp] theorem State.endCycle_cls (held : State) : (held.endCycle s).cls = s.cls := rfl
@[simp] theorem State.endCycle_wctr (held : State) : (held.endCycle s).wctr = s.wctr := rfl
@[simp] theorem State.endCycle_tmo (held : State) : (held.endCycle s).tmo = s.tmo := rfl
@[simp] theorem State.endCycle_pend (held : State) : (held.endCycle s).pend = s.pend := rfl
@[simp] theorem State.endCycle_chan (held : State) : (held.endCycle s).chan = s.chan := rfl
@[simp] theorem State.endCycle_env_params (held : State) : (held.endCycle s).env.params = s.env.params := rfl
@[simp] theorem State.endCycle_env_host (held : State) : (held.endCycle s).env.host = held.hostRest := rfl
@[simp] theorem State.endCycle_env_inputs (held : State) : (held.endCycle s).env.inputs = s.env.inputs.tail := rfl
@[simp] theorem State.endCycle_env_cycle (held : State) : (held.endCycle s).env.cycle = s.env.cycle + 1 := rfl
@[simp] theorem State.endCycle_env_resets (held : State) : (held.endCycle s).env.resets = s.env.resets := rfl
@[simp] theorem State.endCycle_env_out (held : State) : (held.endCycle s).env.out = held.outputs := rfl

/-! ### What is computed from the environment alone -/

@[simp] theorem State.beginCycle_input : s.beginCycle.input = s.input := rfl
@[simp] theorem State.beginCycle_bus : s.beginCycle.bus = s.bus := rfl
@[simp] theorem State.beginCycle_drawLat : s.beginCycle.drawLat = s.drawLat := rfl
@[simp] theorem State.beginCycle_timeout : s.beginCycle.timeout = s.timeout := rfl

/-- Every latency draw is at least 1 (R71). -/
theorem State.one_le_drawLat : 1 ≤ s.drawLat := Nat.le_add_left 1 _

end Sys2Proof.Machine
end

