-- ==== Sys2Proof/Laws/Memory.lean ====
section
/-! SUPPORT. Memory: a read after a write, what a write leaves alone, and that every memory operation keeps the canonical
form. -/

namespace Sys2Proof.Machine

/-! ### One cell -/

theorem Memory.get?_put_same (m : Memory) (a : Nat) (v : Byte) : (m.put a v).get? a = some v := by
  induction m with
  | nil => simp [Memory.put, Memory.get?]
  | cons c m ih =>
    by_cases h1 : a < c.1
    · simp [Memory.put, Memory.get?, h1]
    · by_cases h2 : a = c.1
      · simp [Memory.put, Memory.get?, h2]
      · simp [Memory.put, Memory.get?, h1, h2, Ne.symm h2, ih]

theorem Memory.get?_put_other (m : Memory) {a b : Nat} (v : Byte) (h : b ≠ a) : (m.put a v).get? b = m.get? b := by
  induction m with
  | nil => simp [Memory.put, Memory.get?, Ne.symm h]
  | cons c m ih =>
    by_cases h1 : a < c.1
    · simp [Memory.put, Memory.get?, h1, Ne.symm h]
    · by_cases h2 : a = c.1
      · subst h2; simp [Memory.put, Memory.get?, Ne.symm h]
      · simp only [Memory.put, if_neg h1, if_neg h2, Memory.get?, ih]

theorem Memory.get?_store_same (m : Memory) {a : Nat} (v : Byte) (h : bufferAddr a = true) :
    (m.store a v).get? a = some v := by
  simp [Memory.store, h, Memory.get?_put_same]

theorem Memory.get?_store_other (m : Memory) {a b : Nat} (v : Byte) (h : b ≠ a) :
    (m.store a v).get? b = m.get? b := by
  unfold Memory.store
  split
  · exact m.get?_put_other v h
  · rfl

/-! ### Consecutive cells -/

theorem Memory.get?_storeAll_outside (bs : List Byte) :
    ∀ (m : Memory) (a : Nat) {b : Nat}, (b < a ∨ a + bs.length ≤ b) → (m.storeAll a bs).get? b = m.get? b := by
  induction bs with
  | nil => intro m a b _; rfl
  | cons v vs ih =>
    intro m a b h
    simp only [List.length_cons] at h
    rw [Memory.storeAll, ih _ _ (by omega), Memory.get?_store_other _ _ (by omega)]

theorem Memory.get?_storeAll_inside (bs : List Byte) :
    ∀ (m : Memory) (a : Nat) {i : Nat} (hi : i < bs.length), bufferAddr (a + i) = true →
      (m.storeAll a bs).get? (a + i) = some bs[i] := by
  induction bs with
  | nil => intro m a i hi; simp at hi
  | cons v vs ih =>
    intro m a i hi hb
    cases i with
    | zero =>
      rw [Memory.storeAll, Memory.get?_storeAll_outside _ _ _ (by omega)]
      exact Memory.get?_store_same _ _ hb
    | succ i =>
      rw [Memory.storeAll, show a + (i + 1) = a + 1 + i by omega,
        ih _ _ (by simpa using hi) (by rwa [show a + 1 + i = a + (i + 1) by omega])]
      rfl

/-! ### The canonical form -/

theorem Memory.mem_put {m : Memory} {a : Nat} {v : Byte} {c : Host.Cell} (h : c ∈ m.put a v) :
    c = (a, v) ∨ c ∈ m := by
  induction m with
  | nil => simpa [Memory.put] using h
  | cons d m ih =>
    unfold Memory.put at h
    split at h
    · simpa using h
    · split at h
      · rcases List.mem_cons.1 h with h | h
        · exact .inl h
        · exact .inr (List.mem_cons_of_mem _ h)
      · rcases List.mem_cons.1 h with h | h
        · exact .inr (h ▸ List.mem_cons_self)
        · exact (ih h).imp_right (List.mem_cons_of_mem _)

theorem Memory.put_pairwise {m : Memory} (a : Nat) (v : Byte) (h : m.Pairwise fun c d => c.1 < d.1) :
    (m.put a v).Pairwise fun c d => c.1 < d.1 := by
  induction m with
  | nil => simp [Memory.put]
  | cons d m ih =>
    have hd := (List.pairwise_cons.1 h).1
    have hm := (List.pairwise_cons.1 h).2
    unfold Memory.put
    split
    · next h1 =>
      refine List.pairwise_cons.2 ⟨fun c hc => ?_, h⟩
      rcases List.mem_cons.1 hc with rfl | hc
      · exact h1
      · exact lt_trans h1 (hd c hc)
    · split
      · next _ h2 => exact List.pairwise_cons.2 ⟨fun c hc => h2 ▸ hd c hc, hm⟩
      · refine List.pairwise_cons.2 ⟨fun c hc => ?_, ih hm⟩
        rcases Memory.mem_put hc with rfl | hc
        · simp only; omega
        · exact hd c hc

theorem Memory.wf_iff (m : Memory) :
    m.wf = true ↔ (m.Pairwise fun c d => c.1 < d.1) ∧ ∀ c ∈ m, bufferAddr c.1 = true := by
  simp [Memory.wf, List.all_eq_true]

theorem Memory.store_wf {m : Memory} (a : Nat) (v : Byte) (h : m.wf = true) : (m.store a v).wf = true := by
  unfold Memory.store
  split
  · next ha =>
    rw [Memory.wf_iff] at h ⊢
    refine ⟨Memory.put_pairwise a v h.1, fun c hc => ?_⟩
    rcases Memory.mem_put hc with rfl | hc
    · exact ha
    · exact h.2 c hc
  · exact h

theorem Memory.storeAll_wf (bs : List Byte) :
    ∀ {m : Memory} (a : Nat), m.wf = true → (m.storeAll a bs).wf = true := by
  induction bs with
  | nil => intro m a h; exact h
  | cons v vs ih => intro m a h; exact ih (a + 1) (Memory.store_wf a v h)

/-- The reset memory is in canonical form. -/
theorem State.reset_mem_wf : State.reset.mem.wf = true := rfl

/-! ### Buffer bytes of a state -/

/-- A buffer byte depends on the memory and on the number of resets only. -/
theorem State.byteAt_congr {s t : State} (hm : t.mem = s.mem) (hr : t.env.resets = s.env.resets) (a : Nat) :
    t.byteAt a = s.byteAt a := by
  unfold State.byteAt
  rw [hm, hr]

theorem State.byteAt_of_get? {s : State} {a : Nat} {v : Byte} (h : s.mem.get? a = some v) : s.byteAt a = v := by
  unfold State.byteAt
  rw [h]

/-- Bytes whose cell is listed alike read alike. -/
theorem State.byteAt_of_get?_eq {s t : State} {a : Nat} (hm : t.mem.get? a = s.mem.get? a)
    (hr : t.env.resets = s.env.resets) : t.byteAt a = s.byteAt a := by
  unfold State.byteAt
  rw [hm, hr]

theorem State.byteAt_writeByte_same (s : State) {a : Nat} (v : Byte) (h : bufferAddr a = true) :
    (s.writeByte a v).byteAt a = v :=
  State.byteAt_of_get? (Memory.get?_store_same _ _ h)

theorem State.byteAt_writeByte_other (s : State) {a b : Nat} (v : Byte) (h : b ≠ a) :
    (s.writeByte a v).byteAt b = s.byteAt b :=
  State.byteAt_of_get?_eq (Memory.get?_store_other _ _ h) rfl

theorem State.byteAt_writeBytes_inside (s : State) {a i : Nat} {bs : List Byte} (hi : i < bs.length)
    (h : bufferAddr (a + i) = true) : (s.writeBytes a bs).byteAt (a + i) = bs[i] :=
  State.byteAt_of_get? (Memory.get?_storeAll_inside _ _ _ hi h)

theorem State.byteAt_writeBytes_outside (s : State) {a b : Nat} {bs : List Byte}
    (h : b < a ∨ a + bs.length ≤ b) : (s.writeBytes a bs).byteAt b = s.byteAt b :=
  State.byteAt_of_get?_eq (Memory.get?_storeAll_outside _ _ _ h) rfl

/-! ### The windows -/

theorem bufferAddr_tx {i : Nat} (h : i < txBufSize) : bufferAddr (txBase + i) = true := by
  simp [bufferAddr, h]

theorem bufferAddr_rx {i : Nat} (h : i < rxBufSize) : bufferAddr (rxBase + i) = true := by
  simp [bufferAddr, h]

theorem not_bufferAddr_low {a : Nat} (h : a < txBase) : bufferAddr a = false := by
  rw [Bool.eq_false_iff]
  intro hb
  simp only [bufferAddr, Bool.or_eq_true, Bool.and_eq_true, decide_eq_true_eq] at hb
  simp only [txBase, txBufSize, rxBase, rxBufSize] at h hb
  omega

@[simp] theorem State.txBytes_length (s : State) (i n : Nat) : (s.txBytes i n).length = n := by
  simp [State.txBytes]

@[simp] theorem State.rxBytes_length (s : State) (i n : Nat) : (s.rxBytes i n).length = n := by
  simp [State.rxBytes]

theorem State.getElem_txBytes (s : State) (i n k : Nat) (h : k < (s.txBytes i n).length) :
    (s.txBytes i n)[k] = s.txByte (i + k) := by
  simp [State.txBytes]

theorem State.getElem_rxBytes (s : State) (i n k : Nat) (h : k < (s.rxBytes i n).length) :
    (s.rxBytes i n)[k] = s.rxByte (i + k) := by
  simp [State.rxBytes]

@[simp] theorem State.txFrame_length (s : State) : s.txFrame.length = s.txCount := State.txBytes_length _ _ _

@[simp] theorem State.rxFrame_length (s : State) : s.rxFrame.length = s.pos.toNat := State.rxBytes_length _ _ _

theorem State.txByte_congr {s t : State} (hm : t.mem = s.mem) (hr : t.env.resets = s.env.resets) (i : Nat) :
    t.txByte i = s.txByte i := State.byteAt_congr hm hr _

theorem State.rxByte_congr {s t : State} (hm : t.mem = s.mem) (hr : t.env.resets = s.env.resets) (i : Nat) :
    t.rxByte i = s.rxByte i := State.byteAt_congr hm hr _

theorem State.txBytes_congr {s t : State} (hm : t.mem = s.mem) (hr : t.env.resets = s.env.resets) (i n : Nat) :
    t.txBytes i n = s.txBytes i n := by
  unfold State.txBytes
  exact List.map_congr_left fun k _ => State.txByte_congr hm hr _

theorem State.rxBytes_congr {s t : State} (hm : t.mem = s.mem) (hr : t.env.resets = s.env.resets) (i n : Nat) :
    t.rxBytes i n = s.rxBytes i n := by
  unfold State.rxBytes
  exact List.map_congr_left fun k _ => State.rxByte_congr hm hr _

end Sys2Proof.Machine
end

