-- ==== Sys2Proof/Laws/Ops.lean ====
section
/-! SUPPORT. What each shared operation can do, said once: the cases of the cycle functions, and their frames. -/

namespace Sys2Proof.Machine

/-! ### Busy and the latency -/

theorem State.busy_iff (s : State) : s.busy = true ↔ s.st ≠ .idle := by simp [State.busy]

theorem State.not_busy_iff (s : State) : s.busy = false ↔ s.st = .idle := by simp [State.busy]

theorem State.txLenOk_iff (s : State) : s.txLenOk = true ↔ 2 ≤ s.txCount := by simp [State.txLenOk]

theorem State.txCount_lt (s : State) : s.txCount < 256 := s.txLen.isLt

/-! ### The cycle functions by cases -/

theorem State.blockCycle_idle {s : State} (h : s.st = .idle) : s.blockCycle = s := by simp [State.blockCycle, h]

theorem State.blockCycle_stage {s : State} (h : s.st = .stage) : s.blockCycle = s.stageCycle := by
  simp [State.blockCycle, h]

theorem State.blockCycle_tx {s : State} (h : s.st = .tx) : s.blockCycle = s.txCycle := by simp [State.blockCycle, h]

theorem State.blockCycle_drain {s : State} (h : s.st = .drain) : s.blockCycle = s.drainCycle := by
  simp [State.blockCycle, h]

theorem State.blockCycle_rx {s : State} (h : s.st = .rx) : s.blockCycle = s.rxCycle := by simp [State.blockCycle, h]

theorem State.blockCycle_check {s : State} (h : s.st = .check) : s.blockCycle = s.checkCycle := by
  simp [State.blockCycle, h]

/-- A command in an idle block is accepted. -/
theorem State.command_idle {s : State} (h : s.st = .idle) (v : Byte) (ph : Phase) (pd : Pend) :
    s.command v ph pd = s.accept v ph pd := by
  simp [State.command, h]

/-- A command in a busy block is the one that is running. -/
theorem State.command_busy {s : State} (h : s.st ≠ .idle) (v : Byte) (ph : Phase) (pd : Pend) :
    s.command v ph pd = s.blockCycle := by
  unfold State.command
  split
  · next hi => exact absurd hi h
  · rfl

theorem State.stageCycle_count {s : State} (h : 1 < s.lat) : s.stageCycle = { s with lat := s.lat - 1 } := by
  simp [State.stageCycle, h]

theorem State.stageCycle_act {s : State} (h : s.lat ≤ 1) : s.stageCycle = s.action := by
  simp [State.stageCycle, Nat.not_lt.2 h]

theorem State.checkCycle_count {s : State} (h : 1 < s.lat) : s.checkCycle = { s with lat := s.lat - 1 } := by
  simp [State.checkCycle, State.countCheck, h]

theorem State.checkCycle_act {s : State} (h : s.lat ≤ 1) : s.checkCycle = s.checkAction := by
  simp [State.checkCycle, State.countCheck, Nat.not_lt.2 h]

/-- What a TX cycle can do (R94). -/
theorem State.sendCycle_cases (s : State) (frame : List Byte) (b : Byte) :
    (s.input.txReady = false ∧ s.sendCycle frame b = s) ∨
    (s.input.txReady = true ∧ s.txi.toNat + 1 = frame.length ∧
      s.sendCycle frame b = { s.handOver b with st := .drain }) ∨
    (s.input.txReady = true ∧ s.txi.toNat + 1 ≠ frame.length ∧
      s.sendCycle frame b = { s.handOver b with txi := s.txi + 1 }) := by
  unfold State.sendCycle
  by_cases hr : s.input.txReady = true
  · by_cases hl : s.txi.toNat + 1 = frame.length
    · exact .inr (.inl ⟨hr, hl, by simp [hr, hl]⟩)
    · exact .inr (.inr ⟨hr, hl, by simp [hr, hl]⟩)
  · exact .inl ⟨by simpa using hr, by simp [hr]⟩

/-- What a DRAIN cycle can do (R95). -/
theorem State.drainCycle_cases (s : State) :
    (s.txEmpty = true ∧ s.drainCycle = { s.flushFifo with dir := false, wctr := 0, st := .rx }) ∨
    (s.txEmpty = false ∧ s.drainCycle = s) := by
  unfold State.drainCycle
  cases h : s.txEmpty
  · exact .inr ⟨rfl, by simp⟩
  · exact .inl ⟨rfl, by simp⟩

/-- What an RX cycle can do (R122). -/
theorem State.rxCycle_cases (s : State) :
    (∃ b rest, s.chan.fifo = b :: rest ∧ s.discards b = true ∧ s.rxCycle = s.popFifo) ∨
    (∃ b rest, s.chan.fifo = b :: rest ∧ s.discards b = false ∧ s.pos + 1 ≠ s.expAfter b ∧
      s.rxCycle = s.popFifo.storeByte b) ∨
    (∃ b rest, s.chan.fifo = b :: rest ∧ s.discards b = false ∧ s.pos + 1 = s.expAfter b ∧
      s.rxCycle = (s.popFifo.storeByte b).enterCheck) ∨
    (s.chan.fifo = [] ∧ s.wctr = s.timeout ∧ s.rxCycle = ({ s with tmo := true } : State).enterCheck) ∨
    (s.chan.fifo = [] ∧ s.wctr ≠ s.timeout ∧ s.rxCycle = { s with wctr := s.wctr + 1 }) := by
  unfold State.rxCycle
  split
  · next b rest hf =>
    by_cases hd : s.discards b = true
    · exact .inl ⟨b, rest, hf, hd, if_pos hd⟩
    · have hd' : s.discards b = false := by simpa using hd
      by_cases he : s.pos + 1 = s.expAfter b
      · exact .inr (.inr (.inl ⟨b, rest, hf, hd', he, by rw [if_neg hd, if_pos he]⟩))
      · exact .inr (.inl ⟨b, rest, hf, hd', he, by rw [if_neg hd, if_neg he]⟩)
  · next hf =>
    by_cases ht : s.wctr = s.timeout
    · exact .inr (.inr (.inr (.inl ⟨hf, ht, if_pos ht⟩)))
    · exact .inr (.inr (.inr (.inr ⟨hf, ht, if_neg ht⟩)))

/-- What the classification can do (R110). -/
theorem State.checkAction_cases (s : State) :
    (s.pos = 0#9 ∧ s.checkAction = s.finish .noResponse) ∨
    (s.pos ≠ 0#9 ∧ s.truncated = true ∧ s.checkAction = s.finish .responseTooShort) ∨
    (s.pos ≠ 0#9 ∧ s.truncated = false ∧ s.checkAction = s.judge s.cls s.rxFc s.rxFrame) := by
  unfold State.checkAction
  by_cases h0 : s.pos = 0#9
  · exact .inl ⟨h0, by simp [h0]⟩
  · cases ht : s.truncated
    · exact .inr (.inr ⟨h0, rfl, by simp [h0]⟩)
    · exact .inr (.inl ⟨h0, rfl, by simp [h0]⟩)

/-- A classification only writes the result registers and finishes (R110, R114, R74). -/
theorem State.judge_eq (s : State) (cls : RxClass) (fc : Byte) (frame : List Byte) :
    s.judge cls fc frame =
      { s with
        rxPayloadOff := (payloadOf cls frame.length).1, rxPayloadLen := (payloadOf cls frame.length).2
        crcCalc := crcBody frame, crcRecv := crcField frame
        crcMatch := decide (crcField frame = crcBody frame)
        status := statusCode (if crcField frame = crcBody frame then statusOf fc else .invalidFrame)
        st := .idle, phase := .none, pend := .none, lat := 0 } := rfl

/-! ### The actions in closed form -/

theorem State.actCrcGen_ok {s : State} (h : 2 ≤ s.txCount) :
    s.actCrcGen = ({ s.stampTx s.txCount (crcBody s.txFrame) with crcCalc := crcBody s.txFrame } : State).finish .done := by
  simp [State.actCrcGen, State.txLenOk, h]

theorem State.actCrcGen_short {s : State} (h : s.txCount < 2) : s.actCrcGen = s.finish .commandError := by
  simp [State.actCrcGen, State.txLenOk, h]

theorem State.actCrcCheck_ok {s : State} (h : 2 ≤ s.txCount) :
    s.actCrcCheck =
      ({ s with
          crcCalc := crcBody s.txFrame, crcRecv := crcField s.txFrame
          crcMatch := decide (crcField s.txFrame = crcBody s.txFrame) } : State).finish
        (if crcField s.txFrame = crcBody s.txFrame then .done else .invalidFrame) := by
  simp [State.actCrcCheck, State.txLenOk, h]

theorem State.actCrcCheck_short {s : State} (h : s.txCount < 2) : s.actCrcCheck = s.finish .commandError := by
  simp [State.actCrcCheck, State.txLenOk, h]

theorem State.actXStart_ok {s : State} (h : 2 ≤ s.txCount) :
    s.actXStart =
      { (s.stampTx s.txCount (crcBody s.txFrame)).clearResult.flushFifo with dir := true, st := .tx } := by
  simp [State.actXStart, State.txLenOk, h]

theorem State.actXStart_short {s : State} (h : s.txCount < 2) : s.actXStart = s.finish .commandError := by
  simp [State.actXStart, State.txLenOk, h]

theorem State.buildEnd_none {s : State} (h : s.pend = .none) : s.buildEnd = s.finish .done := by
  simp [State.buildEnd, h]

theorem State.buildEnd_exchange {s : State} (h : s.pend = .exchange) :
    s.buildEnd = { s with phase := .xStart, pend := .none, lat := s.drawLat } := by
  simp [State.buildEnd, h]

/-- A build phase's end writes the control registers and `STATUS` only. -/
theorem State.buildEnd_cases (s : State) :
    (s.pend = .none ∧ s.buildEnd = s.finish .done) ∨
    (s.pend = .exchange ∧ s.buildEnd = { s with phase := .xStart, pend := .none, lat := s.drawLat }) := by
  cases h : s.pend
  · exact .inl ⟨rfl, State.buildEnd_none h⟩
  · exact .inr ⟨rfl, State.buildEnd_exchange h⟩

theorem State.actBuildWriteMulti_refused {s : State} (h : maxCount < s.val.toNat) :
    s.actBuildWriteMulti = s.finish .commandError := by
  simp [State.actBuildWriteMulti, h]

/-! ### What the meanings come to -/

/-- In an idle block every command's meaning is its acceptance, with the first phase of the table of R69. -/
theorem exec_decodeCommand_eq (v : Byte) (s : State) :
    exec (decodeCommand v) s = .next (s.command v (firstPhase v).1 (firstPhase v).2) := by
  unfold decodeCommand firstPhase
  by_cases h1 : v = 0x01#8
  · subst h1; rfl
  by_cases h2 : v = 0x02#8
  · subst h2; rfl
  by_cases h3 : v = 0x10#8
  · subst h3; rfl
  by_cases h4 : v = 0x11#8
  · subst h4; rfl
  by_cases h5 : v = 0x12#8
  · subst h5; rfl
  by_cases h6 : v = 0x20#8
  · subst h6; rfl
  by_cases h7 : v = 0x30#8
  · subst h7; rfl
  by_cases h8 : v = 0x31#8
  · subst h8; rfl
  by_cases h9 : v = 0x32#8
  · subst h9; rfl
  by_cases h10 : v = 0x40#8
  · subst h10; rfl
  simp only [if_neg h1, if_neg h2, if_neg h3, if_neg h4, if_neg h5, if_neg h6, if_neg h7, if_neg h8, if_neg h9,
      if_neg h10]
  rfl

/-- In a busy block every command's meaning is the block's own cycle. -/
theorem exec_command_busy {i : Instr} {s : State} (hi : i.format = .cmd) (h : s.st ≠ .idle) :
    exec i s = .next s.blockCycle := by
  cases i with
  | crcGen => exact congrArg _ (State.command_busy h _ _ _)
  | crcCheck => exact congrArg _ (State.command_busy h _ _ _)
  | buildRead => exact congrArg _ (State.command_busy h _ _ _)
  | buildWriteSingle => exact congrArg _ (State.command_busy h _ _ _)
  | buildWriteMulti => exact congrArg _ (State.command_busy h _ _ _)
  | exchange => exact congrArg _ (State.command_busy h _ _ _)
  | readRegs => exact congrArg _ (State.command_busy h _ _ _)
  | writeSingle => exact congrArg _ (State.command_busy h _ _ _)
  | writeMulti => exact congrArg _ (State.command_busy h _ _ _)
  | flushRx => exact congrArg _ (State.command_busy h _ _ _)
  | illegal v => exact congrArg _ (State.command_busy h _ _ _)
  | reqReadHolding u a n k => cases hi
  | reqWriteSingle u a v k => cases hi
  | reqWriteMulti u a n d k => cases hi
  | rspRead u d k => cases hi
  | rspWriteSingleAck u a v k => cases hi
  | rspWriteMultiAck u a n k => cases hi
  | rspError u f c k => cases hi

/-- Every meaning answers a next state. -/
theorem exec_total (i : Instr) (s : State) : ∃ t, exec i s = .next t := by
  cases i <;> exact ⟨_, rfl⟩

/-- A request's meaning. -/
theorem exec_request {i : Instr} (hi : i.format = .wireReq) (s : State) :
    exec i s = .next (s.requestCycle (encode i)) := by
  cases i <;> first | rfl | cases hi


/-! ### One step by cases -/

/-- What one step can do: a reset cycle, a cycle of the current instruction, or an idle cycle. -/
theorem step_cases (s : State) :
    (s.input.rst = true ∧ step s = .next (s.beginCycle.endCycle s.beginCycle.resetEdge)) ∨
    (s.input.rst = false ∧ ∃ i t, s.beginCycle.current = some i ∧ exec i s.beginCycle = .next t ∧
      step s = .next (s.beginCycle.endCycle t)) ∨
    (s.input.rst = false ∧ s.beginCycle.current = none ∧
      step s = .next (s.beginCycle.endCycle s.beginCycle.hostCycle)) := by
  unfold step State.cycleWith
  cases hr : s.input.rst
  · cases hc : s.beginCycle.current with
    | none => exact .inr (.inr ⟨rfl, rfl, by simp [hr, hc]⟩)
    | some i =>
      obtain ⟨t, ht⟩ := exec_total i s.beginCycle
      exact .inr (.inl ⟨rfl, i, t, rfl, ht, by simp [hr, hc, ht, endOutcome]⟩)
  · exact .inl ⟨rfl, by simp [hr]⟩

/-- Only an idle block has a cycle without a current instruction. -/
theorem State.current_none {s : State} (h : s.current = none) :
    s.st = .idle ∧ ¬ (s.bus.we = true ∧ s.bus.addr = addrCmd) := by
  unfold State.current at h
  split at h
  · next hi =>
    refine ⟨hi, ?_⟩
    intro hw
    simp [hw] at h
  all_goals cases h

end Sys2Proof.Machine
end

