-- ==== Sys2Proof/Laws/Actions.lean ====
section
/-! SUPPORT. What each phase's action does, in terms of the bytes it reads and writes: the buffers as byte sequences, the
CRC stamp, the three builds, accepting a byte, and the classification. -/

namespace Sys2Proof.Machine

/-- In a STAGE cycle whose latency has run down, every command runs the phase's action (R70). -/
theorem exec_stage_act {i : Instr} {s : State} (hi : i.format = .cmd) (h : s.st = .stage) (hl : s.lat ≤ 1) :
    exec i s = .next s.action := by
  rw [exec_command_busy hi (by simp [h]), State.blockCycle_stage h, State.stageCycle_act hl]

/-- The four exchange commands are command words. -/
theorem isExchangeCommand_format {i : Instr} (h : isExchangeCommand i = true) : i.format = .cmd := by
  cases i <;> first | rfl | cases h

/-- `finish` as one record update (R74). -/
theorem State.finish_eq (s : State)
    (r : Status) : s.finish r = { s with status := statusCode r, st := .idle, phase := .none, pend := .none, lat := 0 } := rfl

/-- A prefix of a piece of `TX_BUF`. -/
theorem State.take_txBytes (s : State) (i n m : Nat) (h : m ≤ n) : (s.txBytes i n).take m = s.txBytes i m := by
  rw [State.txBytes, ← List.map_take, List.take_range, Nat.min_eq_left h]; rfl

/-- A prefix of a piece of `RX_FRAME`. -/
theorem State.take_rxBytes (s : State) (i n m : Nat) (h : m ≤ n) : (s.rxBytes i n).take m = s.rxBytes i m := by
  rw [State.rxBytes, ← List.map_take, List.take_range, Nat.min_eq_left h]; rfl

/-- The CRC that CRC_GEN and PH_XSTART compute (R86, R92). -/
theorem State.crcBody_txFrame (s : State) : crcBody s.txFrame = crc16 (s.txBytes 0 (s.txCount - 2)) := by
  rw [crcBody, State.txFrame_length, State.txFrame, State.take_txBytes _ _ _ _ (by omega)]

/-- The CRC field of the frame in `TX_BUF` (R87). -/
theorem State.crcField_txFrame (s : State) (h : 2 ≤ s.txCount) : crcField s.txFrame = join (s.txByte (s.txCount - 1))
    (s.txByte (s.txCount - 2)) := by
  have h1 : s.txCount - 1 < s.txFrame.length := by simp; omega
  have h2 : s.txCount - 2 < s.txFrame.length := by simp; omega
  rw [crcField, State.txFrame_length, List.getD_eq_getElem _ _ h1, List.getD_eq_getElem _ _ h2]
  simp [State.txFrame, State.getElem_txBytes]

/-- The CRC that CHECK computes (R110). -/
theorem State.crcBody_rxFrame (s : State) : crcBody s.rxFrame = crc16 (s.rxBytes 0 (s.pos.toNat - 2)) := by
  rw [crcBody, State.rxFrame_length, State.rxFrame, State.take_rxBytes _ _ _ _ (by omega)]

/-- The CRC field of the response (R110). -/
theorem State.crcField_rxFrame (s : State)
    (h : 2 ≤ s.pos.toNat) : crcField s.rxFrame = join (s.rxByte (s.pos.toNat - 1)) (s.rxByte (s.pos.toNat - 2)) := by
  have h1 : s.pos.toNat - 1 < s.rxFrame.length := by simp; omega
  have h2 : s.pos.toNat - 2 < s.rxFrame.length := by simp; omega
  rw [crcField, State.rxFrame_length, List.getD_eq_getElem _ _ h1, List.getD_eq_getElem _ _ h2]
  simp [State.rxFrame, State.getElem_rxBytes]

/-- A stamp writes the low CRC byte (R82). -/
theorem State.stampTx_lo (s : State) (c : Word) (h : 2 ≤ s.txCount) :
    (s.stampTx s.txCount c).txByte (s.txCount - 2) = lo8 c := by
  have := State.byteAt_writeBytes_inside s (a := txBase + (s.txCount - 2)) (i := 0) (bs := crcTail c) (by simp)
      (bufferAddr_tx (by have := s.txCount_lt; simp [txBufSize]; omega))
  exact this

/-- A stamp writes the high CRC byte (R82). -/
theorem State.stampTx_hi (s : State) (c : Word) (h : 2 ≤ s.txCount) :
    (s.stampTx s.txCount c).txByte (s.txCount - 1) = hi8 c := by
  have := State.byteAt_writeBytes_inside s (a := txBase + (s.txCount - 2)) (i := 1) (bs := crcTail c) (by simp)
      (by rw [Nat.add_assoc]; exact bufferAddr_tx (by have := s.txCount_lt; simp [txBufSize]; omega))
  have e : txBase + (s.txCount - 2) + 1 = txBase + (s.txCount - 1) := by omega
  rw [e] at this
  exact this

/-- A stamp writes no other byte (R82). -/
theorem State.stampTx_other (s : State) (c : Word) (a : Nat) (h2 : 2 ≤ s.txCount) (h : a ≠ txBase + (s.txCount - 2))
    (h' : a ≠ txBase + (s.txCount - 1)) :
    (s.stampTx s.txCount c).byteAt a = s.byteAt a := by
  apply State.byteAt_writeBytes_outside
  simp; omega

/-- Pieces of `TX_BUF` agree when their bytes do. -/
theorem State.txBytes_ext {s t : State} {i n : Nat} (h : ∀ k < n,
    t.txByte (i + k) = s.txByte (i + k)) : t.txBytes i n = s.txBytes i n := by
  unfold State.txBytes
  exact List.map_congr_left fun k hk => h k (List.mem_range.1 hk)

/-- A piece of `TX_BUF` is the list of its bytes. -/
theorem State.txBytes_eq_of {t : State} {i n : Nat} {l : List Byte} (hl : l.length = n) (h : ∀ k (hk : k < l.length),
    t.txByte (i + k) = l[k]) : t.txBytes i n = l := by
  apply List.ext_getElem
  · simp [hl]
  · intro k h1 h2
    rw [State.getElem_txBytes, h k h2]

/-- A sequence written into `TX_BUF` is read back. -/
theorem State.writeTx_bytes (s : State) (i : Nat) (l : List Byte) (h : i + l.length ≤ 255) :
    (s.writeTx i l).txBytes i l.length = l := by
  apply State.txBytes_eq_of rfl
  intro k hk
  have := State.byteAt_writeBytes_inside s (a := txBase + i) (i := k) (bs := l) hk (by rw [Nat.add_assoc]; exact bufferAddr_tx (by simp [txBufSize]; omega))
  rw [Nat.add_assoc] at this
  exact this

/-- A sequence written into `TX_BUF` changes no other byte. -/
theorem State.writeTx_other (s : State) (i : Nat) (l : List Byte) (a : Nat) (h : a < txBase + i ∨
    txBase + i + l.length ≤ a) : (s.writeTx i l).byteAt a = s.byteAt a :=
  State.byteAt_writeBytes_outside s h

/-- A build, then `finish`, as one record update. -/
theorem State.built_finish (s : State) (m : Memory) (l : Byte) (c : Word) (r : Status) :
    (s.built m l c).finish r = { s with mem := m, txLen := l, crcCalc := c, status := statusCode r, st := .idle, phase := .none, pend := .none, lat := 0 } := rfl

/-- The end of a build with an exchange pending (R69). -/
theorem State.built_buildEnd_exchange (s : State) (m : Memory) (l : Byte) (c : Word) (h : s.pend = .exchange) :
    (s.built m l c).buildEnd = { s with mem := m, txLen := l, crcCalc := c, phase := .xStart, pend := .none, lat := s.drawLat } := by
  rw [State.buildEnd_exchange (by exact h)]; rfl

/-- The end of a build on its own (R69). -/
theorem State.built_buildEnd_none (s : State) (m : Memory) (l : Byte) (c : Word) (h : s.pend = .none) :
    (s.built m l c).buildEnd = { s with mem := m, txLen := l, crcCalc := c, status := 0x01#8, st := .idle, phase := .none, pend := .none, lat := 0 } := by
  rw [State.buildEnd_none (by exact h)]; rfl

/-- A write-multiple build writes no other byte (R90). -/
theorem State.multiWritten_other (s : State) (c : Word) (a : Nat) (h1 : a < txBase ∨ txBase + 7 ≤ a)
    (h2 : a ≠ txBase + 7 + 2 * s.val.toNat) (h3 : a ≠ txBase + 8 + 2 * s.val.toNat) :
    (s.multiWritten c).byteAt a = s.byteAt a := by
    show ((s.writeTx 0 _).writeTx _ _).byteAt a = _
    rw [State.writeTx_other _ _ _ _ (by simp; omega), State.writeTx_other _ _ _ _ (by simp; omega)]

/-- The frame a write-multiple build leaves (R59, R90). -/
theorem State.multiWritten_bytes (s : State) (c : Word) (h : s.val.toNat ≤ 123) :
    (s.multiWritten c).txBytes 0 (9 + 2 * s.val.toNat) = multiBody s.unitId s.addr s.val (s.txBytes 7 (2 * s.val.toNat)) ++ crcTail c := by
  apply State.txBytes_eq_of
  · simp; omega
  intro k hk
  simp at hk
  rw [Nat.zero_add]
  by_cases h1 : k < 7
  · have hb : (s.multiWritten c).txByte k = (reqHeader s.unitId fcWriteMulti s.addr s.val ++ [byteCount s.val])[k]'(by simp; omega) := by
      show ((s.writeTx 0 _).writeTx _ _).byteAt _ = _
      rw [State.writeTx_other _ _ _ _ (by left; omega)]
      have := State.byteAt_writeBytes_inside s (a := txBase + 0) (i := k) (bs := reqHeader s.unitId fcWriteMulti s.addr s.val ++ [byteCount s.val]) (by simp; omega) (bufferAddr_tx (by simp [txBufSize]; omega))
      exact this
    rw [hb]
    simp only [multiBody]
    match k, h1 with
    | 0, _ => rfl
    | 1, _ => rfl
    | 2, _ => rfl
    | 3, _ => rfl
    | 4, _ => rfl
    | 5, _ => rfl
    | 6, _ => rfl
  · by_cases h2 : k < 7 + 2 * s.val.toNat
    · have hb : (s.multiWritten c).txByte k = s.txByte k := State.multiWritten_other s c _ (by omega) (by omega)
          (by omega)
      rw [hb]
      simp only [multiBody]
      rw [List.getElem_append_left (by simp; omega), List.getElem_append_right (by simp; omega)]
      simp only [reqHeader_length]
      rw [List.getElem_cons]
      simp [show ¬ (k - 6 = 0) by omega, State.getElem_txBytes, show 7 + (k - 6 - 1) = k by omega]
    · have hb := State.byteAt_writeBytes_inside (s.writeTx 0 (reqHeader s.unitId fcWriteMulti s.addr s.val ++ [byteCount s.val])) (a := txBase + (7 + 2 * s.val.toNat)) (i := k - (7 + 2 * s.val.toNat)) (bs := crcTail c) (by simp; omega) (by rw [Nat.add_assoc]; exact bufferAddr_tx (by simp [txBufSize]; omega))
      rw [show txBase + (7 + 2 * s.val.toNat) + (k - (7 + 2 * s.val.toNat)) = txBase + k by omega] at hb
      have hb' : (s.multiWritten c).txByte k = _ := hb
      rw [hb']
      rw [List.getElem_append_right (by simp; omega)]
      simp

/-- A write-multiple build that is not refused, with its memory and CRC named apart (R90). -/
theorem State.actBuildWriteMulti_ok (s : State) (h : s.val.toNat ≤ 123) : ∃ m c,
    s.actBuildWriteMulti = (s.built m (len8 (9 + 2 * s.val.toNat)) c).buildEnd ∧
   m = (s.multiWritten c).mem ∧ c = crc16 (multiBody s.unitId s.addr s.val (s.txBytes 7 (2 * s.val.toNat))) := by
  rw [State.actBuildWriteMulti]
  have : ¬ maxCount < s.val.toNat := by simp [maxCount]; omega
  rw [if_neg this]
  exact ⟨_, _, rfl, rfl, rfl⟩

/-- The body of a write-multiple request, byte by byte (R59). -/
theorem multiBody_eq (u : Byte) (a n : Word) (d : List Byte) : multiBody u a n d = [u, 0x10#8, hi8 a, lo8 a, hi8 n,
    lo8 n, BitVec.ofNat 8 (2 * n.toNat)] ++ d := rfl

/-- The frame after a stamp (R82). -/
theorem State.txFrame_of_stampTx (s t : State) (h2 : 2 ≤ s.txCount)
    (hm : t.mem = (s.stampTx s.txCount (crcBody s.txFrame)).mem) (hr : t.env.resets = s.env.resets)
    (hc : t.txLen = s.txLen) :
    t.txFrame = stamped (s.txBytes 0 (s.txCount - 2)) := by
  have hb : ∀ a, t.byteAt a = (s.stampTx s.txCount (crcBody s.txFrame)).byteAt a := fun a => State.byteAt_congr hm hr a
  have hcnt : t.txCount = s.txCount := by simp [State.txCount, hc]
  rw [State.txFrame, hcnt]
  apply State.txBytes_eq_of
  · simp; omega
  intro k hk
  simp at hk
  rw [State.txByte, hb, Nat.zero_add]
  simp only [stamped]
  by_cases h : k < s.txCount - 2
  · rw [List.getElem_append_left (by simpa using h), State.getElem_txBytes, State.stampTx_other _ _ _ h2 (by omega)
        (by omega), Nat.zero_add]; rfl
  · rw [List.getElem_append_right (by simp; omega)]
    by_cases h' : k = s.txCount - 2
    · subst h'
      simp [crcTail, ← State.crcBody_txFrame]
      exact State.stampTx_lo s _ h2
    · have : k = s.txCount - 1 := by omega
      subst this
      simp [crcTail, ← State.crcBody_txFrame, show s.txCount - 1 - (s.txCount - 2) = 1 by omega]
      exact State.stampTx_hi s _ h2

/-- A byte of the frame in `TX_BUF`. -/
theorem State.getD_txFrame (s : State) (f : List Byte) (h : f = s.txFrame) (k : Nat) (hk : k < s.txCount)
    (d : Byte) : f.getD k d = s.txByte k := by
  subst h
  rw [List.getD_eq_getElem _ _ (by simpa using hk)]
  simp [State.txFrame, State.getElem_txBytes]

/-- An RX cycle of an exchange command. -/
theorem exec_rx {i : Instr} {s : State} (hi : isExchangeCommand i = true)
    (hs : s.st = .rx) : exec i s = .next s.rxCycle := by
  rw [exec_command_busy (isExchangeCommand_format hi) (by simp [hs]), State.blockCycle_rx hs]

/-- An accepted byte is stored at the position (R106). -/
theorem State.storeByte_rxByte (s : State) (b : Byte) (h : s.pos.toNat < 260) :
    (s.storeByte b).rxByte s.pos.toNat = b :=
  State.byteAt_writeByte_same s b (bufferAddr_rx (by simpa [rxBufSize] using h))

/-- An accepted byte changes no other byte (R106). -/
theorem State.storeByte_byteAt_other (s : State) (b : Byte) {a : Nat} (h : a ≠ rxBase + s.pos.toNat) :
    (s.storeByte b).byteAt a = s.byteAt a :=
  State.byteAt_writeByte_other s b h

/-- A CHECK cycle of a command whose latency has run down (R123). -/
theorem exec_check {i : Instr} {s : State} (hi : i.format = .cmd) (hs : s.st = .check)
    (hl : s.lat ≤ 1) : exec i s = .next s.checkAction := by
  rw [exec_command_busy hi (by simp [hs]), State.blockCycle_check hs, State.checkCycle_act hl]

/-- The position of the short error form (R111). -/
theorem pos_eq_floor (p : BitVec 9) : p.toNat = floorLen ↔ p = 5#9 := by
  constructor
  · intro h; apply BitVec.eq_of_toNat_eq; simpa [floorLen] using h
  · rintro rfl; rfl

/-- When the loop ended by truncation (R110). -/
theorem State.truncated_iff (s : State) : s.truncated = true ↔ s.tmo = true ∧ ¬ (s.cls = .err ∧ s.pos = 5#9) := by
  simp only [State.truncated, Bool.and_eq_true, Bool.not_eq_true', ← pos_eq_floor]
  simp

/-- The status of a checked frame as one chain (R110, R115). -/
theorem statusCode_if (r c : Word) (fc : Byte) :
    statusCode (if r = c then statusOf fc else .invalidFrame) =
     (if r ≠ c then 0x12#8 else if fc = 0x03#8 then 0x16#8 else if fc = 0x06#8 then 0x14#8 else if fc = 0x10#8 then 0x15#8 else 0x13#8) := by
  by_cases h : r = c
  · simp only [h, statusOf, fcRead, fcWriteSingle, fcWriteMulti, ne_eq, not_true_eq_false, if_true, if_false]
    by_cases h1 : fc = 0x03#8
    · simp [h1, statusCode]
    by_cases h2 : fc = 0x06#8
    · simp [h2, statusCode]
    by_cases h3 : fc = 0x10#8
    · simp [h3, statusCode]
    simp [h1, h2, h3, statusCode]
  · simp [h, statusCode]

/-- A response's CHECK cycle whose latency has run down. -/
theorem State.responseCycle_act (s : State) (hs : s.st = .check) (hl : s.lat ≤ 1) (c : RxClass) (fc : Byte)
    (f : List Byte) :
    s.responseCycle c fc f = s.judge c fc f := by
  simp [State.responseCycle, hs, State.countCheck, Nat.not_lt.2 hl]

/-- The classification of a frame given as body and CRC (R110). -/
theorem State.judge_append (s : State) (c : RxClass) (fc : Byte) (body : List Byte) (k : Word) :
   s.judge c fc (body ++ crcTail k) = { s with
        rxPayloadOff := (payloadOf c (body.length + 2)).1, rxPayloadLen := (payloadOf c (body.length + 2)).2
        crcCalc := crc16 body, crcRecv := k
        crcMatch := decide (k = crc16 body)
        status := statusCode (if k = crc16 body then statusOf fc else .invalidFrame)
        st := .idle, phase := .none, pend := .none, lat := 0 } := by
  rw [State.judge_eq, crcField_append_crcTail, crcBody_append_crcTail]; simp

/-- The status code of the CRC verdict. -/
theorem statusCode_ite (r c : Word)
    (x : Status) : statusCode (if r = c then x else .invalidFrame) = if r = c then statusCode x else 0x12#8 := by
  split <;> rfl

end Sys2Proof.Machine
end

