-- ==== Sys2Proof/Laws/Crc.lean ====
section
/-! SUPPORT. The CRC function of 41_crc.md R79, R80: shifts of zeros, the residue of a folded low byte, injectivity. -/

namespace Sys2Proof

/-- A shift whose lost bit is 0 is a plain shift (R79). -/
theorem crcShift_low {c : Word} (h : c.getLsbD 0 = false) : crcShift c = c >>> 1 := by rw [crcShift, h]; rfl

/-- Shifts whose lost bits are all 0 are one plain shift. -/
theorem crcShifts_low (n : Nat) (c : Word) (h : ∀ i < n, c.getLsbD i = false) : crcShifts n c = c >>> n := by
  induction n generalizing c with
  | zero => simp [crcShifts]
  | succ n ih =>
    rw [crcShifts, crcShift_low (h 0 (by omega)), ih]
    · rw [← BitVec.shiftRight_add]; congr 1; omega
    · intro i hi
      rw [BitVec.getLsbD_ushiftRight, Nat.add_comm]; exact h (i+1) (by omega)

/-- Folding the low byte of the running CRC into it leaves `0x00 ++` its high byte (a remark of R153). -/
theorem crcByte_lo8 (c : Word) : crcByte c (lo8 c) = join 0x00#8 (hi8 c) := by
  rw [crcByte, crcShifts_low]
  · apply BitVec.eq_of_getLsbD_eq
    intro i hi
    simp only [join, lo8, hi8, BitVec.getLsbD_append, BitVec.getLsbD_ushiftRight, BitVec.getLsbD_xor,
        BitVec.getLsbD_setWidth, BitVec.getLsbD_extractLsb']
    by_cases h : i < 8
    · simp [h]
    · simp [h]; apply BitVec.getLsbD_of_ge; omega
  · intro i hi
    simp only [lo8, BitVec.getLsbD_xor, BitVec.getLsbD_setWidth, BitVec.getLsbD_extractLsb']
    simp [hi, show i < 16 by omega]

/-- A shift loses nothing: bit 15 of its result says whether the polynomial was folded in. -/
theorem crcShift_inj : Function.Injective crcShift := by
  intro a b h
  have key : ∀ c : Word, (crcShift c).getLsbD 15 = c.getLsbD 0 := by
    intro c; unfold crcShift
    split
    · next h => rw [h, BitVec.getLsbD_xor, BitVec.getLsbD_ushiftRight]; rw [BitVec.getLsbD_of_ge _ _ (by omega)]; rfl
    · next h => rw [Bool.not_eq_true] at h; rw [h,
          BitVec.getLsbD_ushiftRight]; exact BitVec.getLsbD_of_ge _ _ (by omega)
  have h0 : a.getLsbD 0 = b.getLsbD 0 := by rw [← key, ← key, h]
  have hs : a >>> 1 = b >>> 1 := by
    unfold crcShift at h
    rw [h0] at h
    split at h
    · have := congrArg (· ^^^ 0xA001#16) h
      simpa [BitVec.xor_assoc] using this
    · exact h
  apply BitVec.eq_of_getLsbD_eq
  intro i hi
  cases i with
  | zero => exact h0
  | succ i =>
    have := congrArg (fun c => c.getLsbD i) hs
    simp only [BitVec.getLsbD_ushiftRight] at this
    rwa [Nat.add_comm] at this

/-- Nor do several shifts. -/
theorem crcShifts_inj (n : Nat) : Function.Injective (crcShifts n) := by
  induction n with
  | zero => exact fun _ _ h => h
  | succ n ih => exact fun a b h => crcShift_inj (ih h)

/-- Two running CRCs that fold the same byte to the same value are equal. -/
theorem crcByte_inj_left (b : Byte) : Function.Injective fun c => crcByte c b := by
  intro a c h
  have := crcShifts_inj 8 h
  exact (BitVec.xor_left_inj _).1 this

/-- Two bytes folded into the same running CRC to the same value are equal. -/
theorem crcByte_inj_right (c : Word) : Function.Injective (crcByte c) := by
  intro a b h
  have := crcShifts_inj 8 h
  have := (BitVec.xor_right_inj _).1 this
  have h2 := congrArg (BitVec.setWidth 8) this
  simpa using h2

end Sys2Proof
end

