-- ==== Sys2Proof/Laws/Host.lean ====
section
/-! SUPPORT. The host port (20_memory.md R37 to R39): which addresses are which, and what a write leaves of a read. -/

namespace Sys2Proof.Machine

/-- The addresses with storage (R47). -/
theorem bufferAddr_iff {a : Nat} : bufferAddr a = true ↔ (0x100 ≤ a ∧ a < 0x1FF) ∨ (0x200 ≤ a ∧ a < 0x304) := by
  simp only [bufferAddr, Bool.or_eq_true, Bool.and_eq_true, decide_eq_true_eq]
  exact Iff.rfl

/-- The addresses of `TX_BUF` (R29). -/
theorem txAddr_iff {a : Nat} : txAddr a = true ↔ 0x100 ≤ a ∧ a < 0x1FF := by
  simp only [txAddr, Bool.and_eq_true, decide_eq_true_eq]
  exact Iff.rfl

/-- Below 0x100 a host read is a register read (R38). -/
theorem State.hostRead_reg (s : State) (a : BitVec 11) (h : a.toNat < 0x100) : s.hostRead a = s.regRead a.toNat := by
  unfold State.hostRead
  rw [not_bufferAddr_low (by simpa [txBase] using h)]
  simp only [Bool.false_eq_true, if_false]
  rw [if_neg]
  simp [payloadBase]; omega

/-- 0x018 and up hold no register (R16). -/
theorem State.regRead_reserved (s : State) (n : Nat) (h : 0x18 ≤ n) : s.regRead n = 0x00#8 := by
  unfold State.regRead
  split <;> first | rfl | omega

/-- The four bytes of a 32-bit value, joined (R43). -/
theorem join_byteOf32 (v : BitVec 32) : join (byteOf32 v 3) (byteOf32 v 2) ++ join (byteOf32 v 1)
    (byteOf32 v 0) = v := by
  apply BitVec.eq_of_getLsbD_eq
  intro i hi
  simp only [join, byteOf32, BitVec.getLsbD_append, BitVec.getLsbD_extractLsb']
  by_cases h1 : i < 8
  · simp [h1, show i < 8 + 8 by omega]
  by_cases h2 : i < 16
  · simp [h1, show i < 8 + 8 by omega, show i - 8 < 8 by omega, show 8 + (i - 8) = i by omega]
  by_cases h3 : i < 24
  · simp [show ¬ i < 8 + 8 by omega, show i - (8+8) < 8 by omega, show 16 + (i - 16) = i by omega]
  · simp [show ¬ i < 8 + 8 by omega, show ¬ i - 16 < 8 by omega, show i - 16 - 8 < 8 by omega,
        show 24 + (i - 16 - 8) = i by omega]

/-- A byte of a 32-bit value after a write of one of its bytes (R28, R39). -/
theorem byteOf32_setByte32 (v : BitVec 32) (k j : Nat) (b : Byte) (hk : k < 4)
    (hj : j < 4) : byteOf32 (setByte32 v k b) j = if j = k then b else byteOf32 v j := by
  have hj' : j = 0 ∨ j = 1 ∨ j = 2 ∨ j = 3 := by omega
  have hk' : k = 0 ∨ k = 1 ∨ k = 2 ∨ k = 3 := by omega
  have e : ∀ (b3 b2 b1 b0 : Byte), byteOf32 (join4 b3 b2 b1 b0) 0 = b0 ∧ byteOf32 (join4 b3 b2 b1 b0) 1 = b1 ∧
      byteOf32 (join4 b3 b2 b1 b0) 2 = b2 ∧ byteOf32 (join4 b3 b2 b1 b0) 3 = b3 := by
    intro b3 b2 b1 b0
    refine ⟨?_, ?_, ?_, ?_⟩ <;>
    · apply BitVec.eq_of_getLsbD_eq
      intro i hi
      simp only [join4, join, byteOf32, BitVec.getLsbD_append, BitVec.getLsbD_extractLsb']
      simp [hi, show ¬ 24 + i < 16 by omega, show i < 16 by omega, show 8 + i < 16 by omega,
          show 16 + i - 16 = i by omega, show 24 + i - 16 = 8 + i by omega]
  obtain ⟨e0, e1, e2, e3⟩ := e (if k = 3 then b else byteOf32 v 3) (if k = 2 then b else byteOf32 v 2)
      (if k = 1 then b else byteOf32 v 1) (if k = 0 then b else byteOf32 v 0)
  unfold setByte32
  rcases hj' with rfl | rfl | rfl | rfl
  · rw [e0]; simp only [eq_comm]
  · rw [e1]; simp only [eq_comm]
  · rw [e2]; simp only [eq_comm]
  · rw [e3]; simp only [eq_comm]

/-- A write to one register address leaves every other address as it was (R39). -/
theorem State.regRead_regWrite (s : State) (v : Byte) (n m : Nat) (hn : 0 < n) (h : m ≠ n) (hm : m < 24) :
    (s.regWrite n v).regRead m = s.regRead m := by
  unfold State.regWrite
  split
  · omega
  all_goals
    have hm : m = 0 ∨ m = 1 ∨ m = 2 ∨ m = 3 ∨ m = 4 ∨ m = 5 ∨ m = 6 ∨ m = 7 ∨ m = 8 ∨ m = 9 ∨ m = 10 ∨ m = 11 ∨
        m = 12 ∨ m = 13 ∨ m = 14 ∨ m = 15 ∨ m = 16 ∨ m = 17 ∨ m = 18 ∨ m = 19 ∨ m = 20 ∨ m = 21 ∨ m = 22 ∨
        m = 23 := by omega
    rcases hm with rfl | rfl | rfl | rfl | rfl | rfl | rfl | rfl | rfl | rfl | rfl | rfl | rfl | rfl | rfl | rfl | rfl | rfl | rfl | rfl | rfl | rfl | rfl | rfl
    all_goals first | rfl | exact absurd rfl h | simp [State.regRead, byteOf32_setByte32]

/-- Two states that agree on bytes, window and registers read alike (R38). -/
theorem State.hostRead_congr {s t : State} (a : BitVec 11) (hb : ∀ n, bufferAddr n = true → (n = a.toNat ∨
    0x200 ≤ n) → t.byteAt n = s.byteAt n) (ho : t.rxPayloadOff = s.rxPayloadOff) (hx : ∀ n,
    0x200 ≤ n → t.byteAt n = s.byteAt n)
    (hr : a.toNat < 0x18 → t.regRead a.toNat = s.regRead a.toNat) : t.hostRead a = s.hostRead a := by
  unfold State.hostRead
  split
  · next h => exact hb _ h (.inl rfl)
  · split
    · rw [ho]; exact hx _ (by simp [rxBase])
    · by_cases h : a.toNat < 0x18
      · exact hr h
      · rw [State.regRead_reserved _ _ (by omega), State.regRead_reserved _ _ (by omega)]

end Sys2Proof.Machine
end

