-- ==== Sys2Proof/Laws/PerInstr.lean ====
section
/-! SUPPORT. Statements about every instruction as syntax, one lemma per constructor. -/

namespace Sys2Proof.Laws

/-- The family FrameLength: a well-formed instruction is encoded in as many bytes as its format and operands say, and
fits the block's buffers (R53, R57 to R64, R29, R30). -/
def FrameLength.Statement (i : Instr) : Prop :=
  i.WellFormed → (encode i).length = i.byteLength ∧ 1 ≤ i.byteLength ∧ i.byteLength ≤ rxBufSize

/-- A command word is one byte. -/
theorem command_length (v : Byte) : ([v] : List Byte).length = 1 ∧ 1 ≤ 1 ∧ 1 ≤ rxBufSize :=
  ⟨rfl, Nat.le_refl 1, by decide⟩

theorem FrameLength.crcGen : FrameLength.Statement .crcGen := fun _ => command_length _

theorem FrameLength.crcCheck : FrameLength.Statement .crcCheck := fun _ => command_length _

theorem FrameLength.buildRead : FrameLength.Statement .buildRead := fun _ => command_length _

theorem FrameLength.buildWriteSingle : FrameLength.Statement .buildWriteSingle := fun _ => command_length _

theorem FrameLength.buildWriteMulti : FrameLength.Statement .buildWriteMulti := fun _ => command_length _

theorem FrameLength.exchange : FrameLength.Statement .exchange := fun _ => command_length _

theorem FrameLength.readRegs : FrameLength.Statement .readRegs := fun _ => command_length _

theorem FrameLength.writeSingle : FrameLength.Statement .writeSingle := fun _ => command_length _

theorem FrameLength.writeMulti : FrameLength.Statement .writeMulti := fun _ => command_length _

theorem FrameLength.flushRx : FrameLength.Statement .flushRx := fun _ => command_length _

theorem FrameLength.illegal (v : Byte) : FrameLength.Statement (.illegal v) := fun _ => command_length _

/-- A header and its CRC are eight bytes. -/
theorem header_frame_length (u fc : Byte) (a v k : Word) :
    (reqHeader u fc a v ++ crcTail k).length = 8 ∧ 1 ≤ 8 ∧ 8 ≤ rxBufSize := by
  simp [rxBufSize]

theorem FrameLength.reqReadHolding (u : Byte) (a n k : Word) :
    FrameLength.Statement (.reqReadHolding u a n k) := fun _ => header_frame_length _ _ _ _ _

theorem FrameLength.reqWriteSingle (u : Byte) (a v k : Word) :
    FrameLength.Statement (.reqWriteSingle u a v k) := fun _ => header_frame_length _ _ _ _ _

theorem FrameLength.reqWriteMulti (u : Byte) (a n : Word) (d : List Byte) (k : Word) :
    FrameLength.Statement (.reqWriteMulti u a n d k) := by
  intro h
  obtain ⟨hn, hd, _⟩ : n.toNat ≤ maxCount ∧ d.length = 2 * n.toNat ∧ _ := of_decide_eq_true h
  simp only [maxCount] at hn
  simp only [encode, Instr.byteLength, List.length_append, multiBody_length, crcTail_length, hd, rxBufSize]
  omega

theorem FrameLength.rspRead (u : Byte) (d : List Byte) (k : Word) : FrameLength.Statement (.rspRead u d k) := by
  intro h
  have hd : d.length ≤ 255 := of_decide_eq_true h
  simp only [encode, Instr.byteLength, List.length_cons, List.length_append, crcTail_length, floorLen, rxBufSize]
  exact ⟨trivial, by omega, by omega⟩

theorem FrameLength.rspWriteSingleAck (u : Byte) (a v k : Word) :
    FrameLength.Statement (.rspWriteSingleAck u a v k) := fun _ => header_frame_length _ _ _ _ _

theorem FrameLength.rspWriteMultiAck (u : Byte) (a n k : Word) :
    FrameLength.Statement (.rspWriteMultiAck u a n k) := fun _ => header_frame_length _ _ _ _ _

theorem FrameLength.rspError (u f : Byte) (c : List Byte) (k : Word) :
    FrameLength.Statement (.rspError u f c k) := by
  intro h
  obtain ⟨_, hc⟩ : _ ∧ (c.length = 1 ∨ c.length = 2) := by simpa [Instr.WellFormed, Instr.wf] using h
  simp only [encode, Instr.byteLength, List.length_cons, List.length_append, crcTail_length, rxBufSize]
  exact ⟨trivial, by omega, by omega⟩

end Sys2Proof.Laws
end

