-- ==== Sys2Proof/Laws/Step.lean ====
section
/-! SUPPORT. One step and one cycle of the block: what they can do, said once. -/

namespace Sys2Proof.Machine

/-- The current request is what the frame in `TX_BUF` decodes to. -/
theorem State.decode_of_currentRequest {s : State} {i : Instr} (h : s.currentRequest = some i) : decode .wireReq s.txFrame = .ok i := by
  unfold State.currentRequest at h; split at h
  · next j hj => cases h; exact hj
  · cases h

/-- In a busy block the meaning of the current instruction, a command or a wire frame, is the block's own cycle (R125). -/
theorem exec_current_busy (s : State)
    (hs : s.st ≠ .idle) {i : Instr} (hc : s.current = some i) : exec i s = .next s.blockCycle := by
  have hcmd : ∀ v, exec (decodeCommand v) s = .next s.blockCycle := fun v => exec_command_busy (decodeCommand_format v) hs
  unfold State.current at hc
  split at hc
  · next h => exact absurd h hs
  · cases hc; exact hcmd _
  · next h =>
    cases hr : s.currentRequest with
    | none => rw [hr] at hc; cases hc; exact hcmd _
    | some j =>
      rw [hr] at hc; obtain rfl : j = i := by simpa using hc
      obtain ⟨hf, he⟩ := encode_of_decode (State.decode_of_currentRequest hr)
      rw [exec_request hf, he, State.blockCycle_tx h, State.requestCycle]
      simp only [h]
      by_cases hk : s.txi.toNat < s.txCount
      · rw [State.getD_txFrame s _ rfl _ hk]; rfl
      · rw [List.getD_eq_default _ _ (by simp; omega)]; rfl
  · cases hc; exact hcmd _
  · cases hc; exact hcmd _
  · next h =>
    cases hr : s.currentResponse with
    | none => rw [hr] at hc; cases hc; exact hcmd _
    | some j =>
      rw [hr] at hc; obtain rfl : j = i := by simpa using hc
      unfold State.currentResponse at hr
      split at hr
      · cases hr
      next hn =>
      split at hr
      · next k hk =>
        cases hr
        simp only [not_or, not_not] at hn
        obtain ⟨h0, ht, hfc, hcl⟩ := hn
        have ht : s.truncated = false := by simpa using ht
        obtain ⟨hf, he⟩ := encode_of_decode hk
        have goal : ∀ (c : RxClass) (fc : Byte),
            c = s.cls → fc = s.rxFc → exec j s = .next (s.responseCycle c fc (encode j)) → exec j s = .next s.blockCycle := by
          rintro c fc rfl rfl h1
          rw [h1, he, State.blockCycle_check h, State.responseCycle, State.checkCycle, State.checkAction]
          simp only [h, h0, ht, if_false, Bool.false_eq_true]
        rw [← he] at hfc
        have hsome : ∀ a b : Byte, some a = some b → b = a := fun a b h => by cases h; rfl
        cases j with
        | rspRead u d k =>
          have : s.rxFc = fcRead := by simpa [encode] using hfc.symm
          exact goal .read fcRead (by rw [hcl, this]; decide) this.symm rfl
        | rspWriteSingleAck u a v k =>
          have : s.rxFc = fcWriteSingle := hsome _ _ hfc
          exact goal .wack fcWriteSingle (by rw [hcl, this]; decide) this.symm rfl
        | rspWriteMultiAck u a v k =>
          have : s.rxFc = fcWriteMulti := hsome _ _ hfc
          exact goal .wack fcWriteMulti (by rw [hcl, this]; decide) this.symm rfl
        | rspError u f c k =>
          have hff : s.rxFc = f := by simpa [encode] using hfc.symm
          refine goal .err f ?_ hff.symm rfl
          rw [hcl, hff]
          have : validFunction f = false := decode_rspError hk
          simp [validFunction] at this
          simp [classOf, this]
        | _ => cases hf
      · cases hr

/-- In an idle block a command word is issued (R68). -/
theorem exec_decodeCommand_idle (v : Byte) (s : State)
    (hs : s.st = .idle) : exec (decodeCommand v) s = .next (s.issue v) := by
  rw [exec_decodeCommand_eq, State.command_idle hs]; rfl

/-- A step of an idle block is the host's access (R124). -/
theorem step_idle (s : State) (hs : s.st = .idle)
    (hr : s.input.rst = false) : step s = .next (s.beginCycle.endCycle s.beginCycle.hostCycle) := by
  rcases step_cases s with ⟨h, _⟩ | ⟨_, i, t, hc, he, h⟩ | ⟨_, hc, h⟩
  · rw [hr] at h; cases h
  · rw [h]
    unfold State.current at hc
    have hs' : s.beginCycle.st = .idle := hs
    simp only [hs'] at hc
    split at hc
    · next hw =>
      cases hc
      rw [exec_decodeCommand_idle _ _ hs'] at he; cases he
      have : s.beginCycle.hostCycle = s.beginCycle.issue s.beginCycle.bus.wdata := by
        rw [State.hostCycle, hw.1, hw.2]
        have hb : s.beginCycle.busy = false := s.beginCycle.not_busy_iff.2 hs'
        simp [State.hostWrite, hb, addrCmd, txAddr, txBase, State.regWrite]
      rw [this]
    · cases hc
  · exact h

/-- What one step does, in all cases: the reset edge, the host's access of an idle block, or the block's own cycle (R120). -/
theorem step_eq (s : State) : step s = .next (s.beginCycle.endCycle (if s.input.rst then s.beginCycle.resetEdge else if s.st = .idle then s.beginCycle.hostCycle else s.beginCycle.blockCycle)) := by
  by_cases hr : s.input.rst = true
  · rcases step_cases s with ⟨_, h⟩ | ⟨h, _⟩ | ⟨h, _⟩
    · rw [h, if_pos hr]
    · rw [hr] at h; cases h
    · rw [hr] at h; cases h
  · rw [if_neg hr]
    have hr' : s.input.rst = false := by simpa using hr
    by_cases hs : s.st = .idle
    · rw [if_pos hs, step_idle s hs hr']
    · rw [if_neg hs]
      rcases step_cases s with ⟨h, _⟩ | ⟨_, i, t, hc, he, h⟩ | ⟨_, hc, _⟩
      · exact absurd h hr
      · rw [exec_current_busy s.beginCycle hs hc] at he
        cases he; exact h
      · exact absurd (State.current_none hc).1 hs

/-- Next states are equal when the outcomes are. -/
theorem Outcome.next_inj {s t : State} (h :
    (Host.Outcome.next s : Host.Outcome State Fault Refusal) = .next t) : s = t := by cases h; rfl

/-- The registers no cycle of a running command writes, and the phases that write `TX_LEN` (R34, R69). -/
theorem State.blockCycle_frame (s : State) : s.blockCycle.lastCmd = s.lastCmd ∧ s.blockCycle.op = s.op ∧
    s.blockCycle.unitId = s.unitId ∧ s.blockCycle.addr = s.addr ∧ s.blockCycle.val = s.val ∧
    s.blockCycle.baud = s.baud ∧ s.blockCycle.env = s.env ∧ (s.blockCycle.txLen = s.txLen ∨ s.st = .stage ∧
    (s.phase = .bRead ∨ s.phase = .bWSingle ∨ s.phase = .bWMulti)) := by
  have bE : ∀ x : State, x.buildEnd.lastCmd = x.lastCmd ∧ x.buildEnd.op = x.op ∧ x.buildEnd.unitId = x.unitId ∧
      x.buildEnd.addr = x.addr ∧ x.buildEnd.val = x.val ∧ x.buildEnd.baud = x.baud ∧ x.buildEnd.env = x.env := by
    intro x; rcases x.buildEnd_cases with ⟨_, h⟩ | ⟨_, h⟩ <;> rw [h] <;> exact ⟨rfl, rfl, rfl, rfl, rfl, rfl, rfl⟩
  unfold State.blockCycle
  split
  · simp
  · next hst =>
    unfold State.stageCycle
    split
    · simp
    · unfold State.action
      split
      · simp
      · unfold State.actCrcGen; split <;> exact ⟨rfl, rfl, rfl, rfl, rfl, rfl, rfl, .inl rfl⟩
      · unfold State.actCrcCheck; split <;> exact ⟨rfl, rfl, rfl, rfl, rfl, rfl, rfl, .inl rfl⟩
      · next hp => unfold State.actBuildRead; obtain ⟨h1,h2,h3,h4,h5,h6,h7⟩ := bE (s.built (s.writeTx 0 (stamped (reqHeader s.unitId fcRead s.addr s.val))).mem 0x08#8 (crc16 (reqHeader s.unitId fcRead s.addr s.val))); exact ⟨h1,h2,h3,h4,h5,h6,h7, .inr ⟨hst, .inl hp⟩⟩
      · next hp => unfold State.actBuildWriteSingle; obtain ⟨h1,h2,h3,h4,h5,h6,h7⟩ := bE (s.built (s.writeTx 0 (stamped (reqHeader s.unitId fcWriteSingle s.addr s.val))).mem 0x08#8 (crc16 (reqHeader s.unitId fcWriteSingle s.addr s.val))); exact ⟨h1,h2,h3,h4,h5,h6,h7, .inr ⟨hst, .inr (.inl hp)⟩⟩
      · next hp =>
        unfold State.actBuildWriteMulti; dsimp only; split
        · exact ⟨rfl, rfl, rfl, rfl, rfl, rfl, rfl, .inl rfl⟩
        · obtain ⟨h1,h2,h3,h4,h5,h6,h7⟩ := bE (s.built (s.multiWritten (crc16 (multiBody s.unitId s.addr s.val s.multiData))).mem (len8 (9 + 2 * s.val.toNat)) (crc16 (multiBody s.unitId s.addr s.val s.multiData))); exact ⟨h1,h2,h3,h4,h5,h6,h7, .inr ⟨hst, .inr (.inr hp)⟩⟩
      · unfold State.actXStart; split <;> exact ⟨rfl, rfl, rfl, rfl, rfl, rfl, rfl, .inl rfl⟩
      · exact ⟨rfl, rfl, rfl, rfl, rfl, rfl, rfl, .inl rfl⟩
      · exact ⟨rfl, rfl, rfl, rfl, rfl, rfl, rfl, .inl rfl⟩
  · rw [State.txCycle]
    rcases s.sendCycle_cases s.txFrame (s.txByte s.txi.toNat) with ⟨_, h⟩ | ⟨_, _, h⟩ | ⟨_, _,
        h⟩ <;> rw [h] <;> exact ⟨rfl, rfl, rfl, rfl, rfl, rfl, rfl, .inl rfl⟩
  · rcases s.drainCycle_cases with ⟨_, h⟩ | ⟨_, h⟩ <;> rw [h] <;> exact ⟨rfl, rfl, rfl, rfl, rfl, rfl, rfl, .inl rfl⟩
  · rcases s.rxCycle_cases with ⟨_, _, _, _, h⟩ | ⟨_, _, _, _, _, h⟩ | ⟨_, _, _, _, _, h⟩ | ⟨_, _, h⟩ | ⟨_, _,
        h⟩ <;> rw [h] <;> exact ⟨rfl, rfl, rfl, rfl, rfl, rfl, rfl, .inl rfl⟩
  · unfold State.checkCycle State.countCheck
    split
    · exact ⟨rfl, rfl, rfl, rfl, rfl, rfl, rfl, .inl rfl⟩
    · rcases s.checkAction_cases with ⟨_, h⟩ | ⟨_, _, h⟩ | ⟨_, _, h⟩ <;> rw [h] <;> exact ⟨rfl, rfl, rfl, rfl, rfl,
          rfl, rfl, .inl rfl⟩

/-- A host access leaves the environment alone. -/
theorem State.hostCycle_env (s : State) : s.hostCycle.env = s.env := by
  unfold State.hostCycle; split
  · unfold State.hostWrite; split
    · rfl
    · split
      · rfl
      · unfold State.regWrite; split <;> rfl
  · rfl

/-- What a host access of an idle block can do (R39): issue a command, or write operand registers or a `TX_BUF` byte. -/
theorem State.hostCycle_cases (s : State) : (s.hostCycle = s.issue s.bus.wdata) ∨
   (∃ u a v l b m, s.hostCycle = { s with unitId := u, addr := a, val := v, txLen := l, baud := b, mem := m } ∧
       (m = s.mem ∨ m = s.mem.store s.bus.addr.toNat s.bus.wdata)) := by
  unfold State.hostCycle; split
  · unfold State.hostWrite; split
    · exact .inr ⟨_, _, _, _, _, _, rfl, .inl rfl⟩
    · split
      · exact .inr ⟨_, _, _, _, _, _, rfl, .inr rfl⟩
      · unfold State.regWrite; split
        · exact .inl rfl
        all_goals exact .inr ⟨_, _, _, _, _, _, rfl, .inl rfl⟩
  · exact .inr ⟨_, _, _, _, _, _, rfl, .inl rfl⟩

/-- The status of a CRC-valid frame is a legal one. -/
theorem statusOf_mem (fc : Byte) : statusCode (statusOf fc) ∈ writtenStatuses := by
  unfold statusOf; repeat' split
  all_goals decide

/-- A command issue as one record update (R68). -/
theorem State.issue_eq (s : State)
    (v : Byte) : s.issue v = { s with lastCmd := v, op := v, phase := (firstPhase v).1, pend := (firstPhase v).2, lat := s.drawLat, st := .stage } := rfl

/-- Every first phase is a phase, and an exchange is pending behind build phases only (R69). -/
theorem firstPhase_ok (v : Byte) : (firstPhase v).1 ≠ .none ∧
    ((firstPhase v).2 = .exchange → (firstPhase v).1 = .bRead ∨ (firstPhase v).1 = .bWSingle ∨
    (firstPhase v).1 = .bWMulti) := by
  unfold firstPhase
  repeat' split
  all_goals simp

/-- What one cycle of the block can do, case by case (R125), with what each case leaves. -/
inductive BlockEdge (s : State) : State → Prop
  | same : BlockEdge s s
  | count : s.st = .stage ∨ s.st = .check → 1 < s.lat → BlockEdge s { s with lat := s.lat - 1 }
  | finish (t : State) (r : Status) : s.st = .stage ∨
      s.st = .check → t.dir = s.dir → (t.rxPayloadOff = s.rxPayloadOff ∨ t.rxPayloadOff = 0#8 ∨ t.rxPayloadOff = 2#8 ∨
      t.rxPayloadOff = 3#8) → t.pos = s.pos → statusCode r ∈ writtenStatuses → BlockEdge s (t.finish r)
  | next (t : State) : s.st = .stage → s.pend = .exchange → t = { s with mem := t.mem, txLen := t.txLen, crcCalc := t.crcCalc } → BlockEdge s { t with phase := .xStart, pend := .none, lat := s.drawLat }
  | xstart (t : State) : s.st = .stage → s.phase = .xStart → 2 ≤ s.txCount → t = { s.clearResult with mem := t.mem, chan := t.chan, dir := true, st := .tx } → BlockEdge s t
  | tx1 (b : Byte) : s.st = .tx → s.txi.toNat + 1 = s.txCount → BlockEdge s { s.handOver b with st := .drain }
  | tx2 (b : Byte) : s.st = .tx → s.txi.toNat + 1 ≠ s.txCount → BlockEdge s { s.handOver b with txi := s.txi + 1 }
  | turn : s.st = .drain → BlockEdge s { s.flushFifo with dir := false, wctr := 0, st := .rx }
  | discard (b : Byte) (r : List Byte) : s.st = .rx → s.chan.fifo = b :: r → s.discards b = true → BlockEdge s s.popFifo
  | accept (b : Byte) (r : List Byte) : s.st = .rx → s.chan.fifo = b :: r → s.discards b = false → s.pos + 1 ≠ s.expAfter b → BlockEdge s (s.popFifo.storeByte b)
  | last (b : Byte) (r : List Byte) : s.st = .rx → s.chan.fifo = b :: r → s.discards b = false → s.pos + 1 = s.expAfter b → BlockEdge s (s.popFifo.storeByte b).enterCheck
  | timeout : s.st = .rx → s.wctr = s.timeout → BlockEdge s ({ s with tmo := true } : State).enterCheck
  | tick : s.st = .rx → s.wctr ≠ s.timeout → BlockEdge s { s with wctr := s.wctr + 1 }

/-- Every cycle of the block is one of the cases of `BlockEdge`. -/
theorem State.blockCycle_edge (s : State) : BlockEdge s s.blockCycle := by
  have bE : ∀ t : State,
      s.st = .stage → t = { s with mem := t.mem, txLen := t.txLen, crcCalc := t.crcCalc } → BlockEdge s t.buildEnd := by
    intro t hs ht
    have hp : t.pend = s.pend := by rw [ht]
    rcases t.buildEnd_cases with ⟨h1, h⟩ | ⟨h1, h⟩ <;> rw [h]
    · exact .finish t .done (.inl hs) (by rw [ht]) (.inl (by rw [ht])) (by rw [ht]) (by decide)
    · have : t.drawLat = s.drawLat := by rw [ht]; rfl
      rw [this]
      exact .next t hs (by rw [← hp]; exact h1) ht
  unfold State.blockCycle
  split
  · exact .same
  · next hst =>
    unfold State.stageCycle
    split
    · next hl => exact .count (.inl hst) hl
    · unfold State.action
      split
      · exact .same
      · unfold State.actCrcGen; split
        · exact .finish _ _ (.inl hst) rfl (.inl rfl) rfl (by decide)
        · exact .finish _ _ (.inl hst) rfl (.inl rfl) rfl (by decide)
      · unfold State.actCrcCheck; split
        · exact .finish _ _ (.inl hst) rfl (.inl rfl) rfl (by split <;> decide)
        · exact .finish _ _ (.inl hst) rfl (.inl rfl) rfl (by decide)
      · unfold State.actBuildRead; exact bE _ hst rfl
      · unfold State.actBuildWriteSingle; exact bE _ hst rfl
      · unfold State.actBuildWriteMulti; dsimp only; split
        · exact .finish _ _ (.inl hst) rfl (.inl rfl) rfl (by decide)
        · exact bE _ hst rfl
      · next hp => unfold State.actXStart; split
                   · next hk => exact .xstart _ hst hp ((s.txLenOk_iff).1 hk) rfl
                   · exact .finish _ _ (.inl hst) rfl (.inl rfl) rfl (by decide)
      · exact .finish s.flushFifo .done (.inl hst) rfl (.inl rfl) rfl (by decide)
      · exact .finish s _ (.inl hst) rfl (.inl rfl) rfl (by decide)
  · next hst =>
    rw [State.txCycle]
    rcases s.sendCycle_cases s.txFrame (s.txByte s.txi.toNat) with ⟨_, h⟩ | ⟨_, h1, h⟩ | ⟨_, h1, h⟩ <;> rw [h]
    · exact .same
    · exact .tx1 _ hst (by simpa using h1)
    · exact .tx2 _ hst (by simpa using h1)
  · next hst =>
    rcases s.drainCycle_cases with ⟨_, h⟩ | ⟨_, h⟩ <;> rw [h]
    · exact .turn hst
    · exact .same
  · next hst =>
    rcases s.rxCycle_cases with ⟨b, r, h1, h2, h⟩ | ⟨b, r, h1, h2, h3, h⟩ | ⟨b, r, h1, h2, h3, h⟩ | ⟨_, h1, h⟩ | ⟨_,
        h1, h⟩ <;> rw [h]
    · exact .discard b r hst h1 h2
    · exact .accept b r hst h1 h2 h3
    · exact .last b r hst h1 h2 h3
    · exact .timeout hst h1
    · exact .tick hst h1
  · next hst =>
    unfold State.checkCycle State.countCheck
    split
    · next hl => exact .count (.inr hst) hl
    · rcases s.checkAction_cases with ⟨_, h⟩ | ⟨_, _, h⟩ | ⟨_, _, h⟩ <;> rw [h]
      · exact .finish s _ (.inr hst) rfl (.inl rfl) rfl (by decide)
      · exact .finish s _ (.inr hst) rfl (.inl rfl) rfl (by decide)
      · refine .finish _ _ (.inr hst) rfl (.inr ?_) rfl ?_
        · show (payloadOf s.cls _).1 = _ ∨ _
          cases s.cls <;> simp [payloadOf]
        · split
          · exact statusOf_mem _
          · decide

/-- No cycle at all. -/
@[simp] theorem runCycles_zero (s : State) : runCycles 0 s = .next s := rfl

/-- A run is its first step and the rest. -/
theorem runCycles_succ {n : Nat} {s t : State} (h : step s = .next t) : runCycles (n + 1) s = runCycles n t := by
  rw [runCycles, h]

/-- Two runs in a row. -/
theorem runCycles_add {n : Nat} (m : Nat) {s t : State} (h : runCycles n s = .next t) :
    runCycles (n + m) s = runCycles m t := by
  induction n generalizing s with
  | zero => cases h; rw [Nat.zero_add]
  | succ n ih =>
    rw [Nat.add_right_comm, runCycles]
    rw [runCycles] at h
    cases hs : step s with
    | next u => rw [hs] at h; exact ih h
    | fault f => rw [hs] at h; cases h
    | refused r => rw [hs] at h; cases h

end Sys2Proof.Machine
end

