-- ==== Sys2Proof/Laws/Transaction.lean ====
section
/-! SUPPORT. Deliveries and timed byte streams of 44_reassembly.md R102, R103: what an empty cycle, a queued byte and the
silence behind a schedule do to them. -/

namespace Sys2Proof.Machine

/-- No cycle delivers nothing. -/
@[simp] theorem deliveriesOf_nil (k : Nat) : deliveriesOf k [] = [] := rfl

/-- The first cycle's bytes come first. -/
@[simp] theorem deliveriesOf_cons (k : Nat) (bs : List Byte) (rest : List (List Byte)) :
    deliveriesOf k (bs :: rest) = bs.map (fun b => (k, b)) ++ deliveriesOf (k + 1) rest := rfl

/-- Silence behind a schedule delivers nothing more. -/
theorem deliveriesOf_silence (k n : Nat) (arr : List (List Byte)) :
    deliveriesOf k (arr ++ List.replicate n []) = deliveriesOf k arr := by
  induction arr generalizing k with
  | nil =>
    induction n generalizing k with
    | zero => rfl
    | succ n ih => simpa [List.replicate_succ] using ih (k + 1)
  | cons bs arr ih => simp [ih]

/-- A byte is visible no earlier than the first cycle. -/
theorem le_of_mem_deliveriesOf {k : Nat} {arr : List (List Byte)} {g : Nat × Byte} (h : g ∈ deliveriesOf k arr) :
    k ≤ g.1 := by
  induction arr generalizing k with
  | nil => cases h
  | cons bs arr ih =>
    rcases List.mem_append.1 h with h | h
    · obtain ⟨b, _, rfl⟩ := List.mem_map.1 h
      exact Nat.le_refl k
    · exact Nat.le_of_succ_le (ih h)

/-- No byte makes no stream. -/
@[simp] theorem gapsOf_nil (start : Nat) : gapsOf start [] = [] := rfl

/-- One byte after the other. -/
@[simp] theorem gapsOf_cons (start : Nat) (g : Nat × Byte) (rest : List (Nat × Byte)) :
    gapsOf start (g :: rest) = (g.1 - start, g.2) :: gapsOf (max start g.1 + 1) rest := rfl

/-- When a queued byte became visible does not matter, only that it did so before its wait began. -/
theorem gapsOf_queued {start j k : Nat} (hj : j ≤ start) (hk : k ≤ start) (q : List Byte) (rest : List (Nat × Byte)) :
    gapsOf start (q.map (fun b => (j, b)) ++ rest) = gapsOf start (q.map (fun b => (k, b)) ++ rest) := by
  induction q generalizing start with
  | nil => rfl
  | cons b q ih =>
    simp only [List.map_cons, List.cons_append, gapsOf_cons, Nat.max_eq_left hj, Nat.max_eq_left hk,
      Nat.sub_eq_zero_of_le hj, Nat.sub_eq_zero_of_le hk]
    rw [ih (by omega) (by omega)]

end Sys2Proof.Machine
end

