-- ==== Sys2Proof/Tests/Slice0.lean ====
section
/-! SUPPORT. Tests: what well-formedness refuses, words and frames written out of the spec's encodings, CRC vectors, one
step of every instruction, and a witness for the hypotheses of every statement of Obligations.lean. -/

namespace Sys2Proof.Tests

open Sys2Proof Sys2Proof.Machine

/-! ### Helpers -/

/-- A realisation with a one-cycle poll loop: `TIMEOUT` is 1. -/
def params : Params := { pollTries := 1, pollDelay := 1, baudReset := 0x00002580#32, base := 0 }

/-- An idle block after reset, of that realisation, with unit id 0x01 and quiet cycles ahead. -/
def idle : State :=
  { State.reset with
    unitId := 0x01#8, baud := 0x00002580#32
    env := { params := params, host := [hostIdle], inputs := [quietInput], cycle := 0, resets := 0, out := Outputs.quiet } }

/-- A stage about to run the action of a phase. -/
def stage (ph : Phase) (pd : Pend) (txLen : Byte) (tx : List Byte) : State :=
  { idle.writeTx 0 tx with st := .stage, phase := ph, pend := pd, lat := 1, txLen := txLen }

/-- The operand registers of a build. -/
def operands (s : State) (unit : Byte) (addr val : Word) : State := { s with unitId := unit, addr := addr, val := val }

/-- A block sending `frame`, at index `txi`. -/
def sending (frame : List Byte) (txi : Byte) : State :=
  { idle.writeTx 0 frame with st := .tx, phase := .xStart, dir := true, txLen := len8 frame.length, txi := txi, exp := 5#9 }

/-- A block receiving, with `got` accepted and `fifo` waiting. -/
def receiving (got fifo : List Byte) (cls : RxClass) (fc : Byte) (exp : BitVec 9) : State :=
  { idle.writeBytes rxBase got with
    st := .rx, phase := .xStart, pos := BitVec.ofNat 9 got.length, cls := cls, rxFc := fc, exp := exp
    chan := { fifo := fifo, unsent := [], sent := [] } }

/-- A block about to classify `frame`. -/
def checking (frame : List Byte) (cls : RxClass) (exp : BitVec 9) (tmo : Bool) : State :=
  { receiving frame [] cls (if frame.length ≤ 1 then 0x00#8 else frame.getD 1 0x00#8) exp with
    st := .check, lat := 1, tmo := tmo }

/-- A block with its host about to make an access. -/
def withHost (s : State) (op : HostOp) : State := { s with env := { s.env with host := [op] } }

/-- A block with its next input. -/
def withInputs (s : State) (ins : List CycleInput) : State := { s with env := { s.env with inputs := ins } }

/-- The state after one cycle of an instruction. -/
def ran (i : Instr) (s : State) : State :=
  match exec i s with
  | .next t => t
  | .fault _ => s
  | .refused _ => s

/-- The state after one step. -/
def stepped (s : State) : State :=
  match step s with
  | .next t => t
  | .fault _ => s
  | .refused _ => s

/-- A step answers the state after it. -/
theorem step_stepped (s : State) : step s = .next (stepped s) := by rw [stepped, step_eq]

/-- An instruction answers the state after it. -/
theorem exec_ran (i : Instr) (s : State) : exec i s = .next (ran i s) := by
  obtain ⟨t, h⟩ := exec_total i s
  rw [ran, h]

/-! ### Well-formedness: one ill-formed term per check -/

/-- R54, R55: a legal opcode is no ILLEGAL instruction. -/
theorem test_wf_illegal : (Instr.illegal 0x20#8).wf = false ∧ (Instr.illegal 0x21#8).wf = true := by decide

set_option maxRecDepth 100000 in
/-- R57: a read request with a swapped CRC. -/
theorem test_wf_readRequest :
    (Instr.reqReadHolding 0x01#8 0x0000#16 0x0001#16 0x840A#16).wf = false ∧
    (Instr.reqReadHolding 0x01#8 0x0000#16 0x0001#16 0x0A84#16).wf = true := by decide

set_option maxRecDepth 100000 in
/-- R58: a write-single request with a wrong CRC. -/
theorem test_wf_writeSingleRequest :
    (Instr.reqWriteSingle 0x01#8 0x0001#16 0x0003#16 0x0B99#16).wf = false ∧
    (Instr.reqWriteSingle 0x01#8 0x0001#16 0x0003#16 0x0B98#16).wf = true := by decide

set_option maxRecDepth 100000 in
/-- R59: a write-multiple request with a wrong CRC, with a data byte too few, and with too many registers. -/
theorem test_wf_writeMultiRequest :
    (Instr.reqWriteMulti 0x01#8 0x0002#16 0x0001#16 [0xAB#8, 0xCD#8] 0x1718#16).wf = false ∧
    (Instr.reqWriteMulti 0x01#8 0x0002#16 0x0001#16 [0xAB#8] 0x1719#16).wf = false ∧
    (Instr.reqWriteMulti 0x01#8 0x0002#16 0x007C#16 [] 0x1719#16).wf = false ∧
    (Instr.reqWriteMulti 0x01#8 0x0002#16 0x0001#16 [0xAB#8, 0xCD#8] 0x1719#16).wf = true := by decide

/-- R60: a read response carries at most 255 data bytes, and may carry none. -/
theorem test_wf_readResponse (d : List Byte) :
    (d.length = 256 → (Instr.rspRead 0x01#8 d 0x0000#16).wf = false) ∧
    (d.length = 255 → (Instr.rspRead 0x01#8 d 0x0000#16).wf = true) ∧
    (d.length = 0 → (Instr.rspRead 0x01#8 d 0x0000#16).wf = true) := by
  refine ⟨?_, ?_, ?_⟩ <;> intro h <;> simp [Instr.wf, h]

/-- R62: an error response has no valid function code and an error code of one or two bytes. -/
theorem test_wf_errorResponse :
    (Instr.rspError 0x01#8 0x03#8 [0x02#8] 0xF1C0#16).wf = false ∧
    (Instr.rspError 0x01#8 0x83#8 [] 0xF1C0#16).wf = false ∧
    (Instr.rspError 0x01#8 0x83#8 [0x00#8, 0x02#8, 0x03#8] 0xF1C0#16).wf = false ∧
    (Instr.rspError 0x01#8 0x83#8 [0x02#8] 0xF1C0#16).wf = true ∧
    (Instr.rspError 0x01#8 0x83#8 [0x00#8, 0x02#8] 0xF171#16).wf = true := by decide

/-! ### Decoding: words written out from the spec's encodings -/

/-- R54: the ten legal command words. -/
theorem test_decode_commands :
    decode .cmd [0x01#8] = .ok .crcGen ∧ decode .cmd [0x02#8] = .ok .crcCheck ∧
    decode .cmd [0x10#8] = .ok .buildRead ∧ decode .cmd [0x11#8] = .ok .buildWriteSingle ∧
    decode .cmd [0x12#8] = .ok .buildWriteMulti ∧ decode .cmd [0x20#8] = .ok .exchange ∧
    decode .cmd [0x30#8] = .ok .readRegs ∧ decode .cmd [0x31#8] = .ok .writeSingle ∧
    decode .cmd [0x32#8] = .ok .writeMulti ∧ decode .cmd [0x40#8] = .ok .flushRx := by decide

/-- R55: the edges of the illegal ranges. -/
theorem test_decode_illegal :
    [0x00#8, 0x03#8, 0x0F#8, 0x13#8, 0x1F#8, 0x21#8, 0x2F#8, 0x33#8, 0x3F#8, 0x41#8, 0xFF#8].map decodeCommand =
      [.illegal 0x00#8, .illegal 0x03#8, .illegal 0x0F#8, .illegal 0x13#8, .illegal 0x1F#8, .illegal 0x21#8,
        .illegal 0x2F#8, .illegal 0x33#8, .illegal 0x3F#8, .illegal 0x41#8, .illegal 0xFF#8] := by decide

/-- R57, R91: the request `01 03 00 00 00 01 84 0A`. -/
theorem test_decode_reqReadHolding :
    decode .wireReq [0x01#8, 0x03#8, 0x00#8, 0x00#8, 0x00#8, 0x01#8, 0x84#8, 0x0A#8] =
      .ok (.reqReadHolding 0x01#8 0x0000#16 0x0001#16 0x0A84#16) := by decide

/-- R58, R99: the request `01 06 00 01 00 03 98 0B`. -/
theorem test_decode_reqWriteSingle :
    decode .wireReq [0x01#8, 0x06#8, 0x00#8, 0x01#8, 0x00#8, 0x03#8, 0x98#8, 0x0B#8] =
      .ok (.reqWriteSingle 0x01#8 0x0001#16 0x0003#16 0x0B98#16) := by decide

/-- R59, R100: the request `01 10 00 02 00 01 02 AB CD 19 17`, and its refusal with a wrong byte count. -/
theorem test_decode_reqWriteMulti :
    decode .wireReq [0x01#8, 0x10#8, 0x00#8, 0x02#8, 0x00#8, 0x01#8, 0x02#8, 0xAB#8, 0xCD#8, 0x19#8, 0x17#8] =
      .ok (.reqWriteMulti 0x01#8 0x0002#16 0x0001#16 [0xAB#8, 0xCD#8] 0x1719#16) ∧
    decode .wireReq [0x01#8, 0x10#8, 0x00#8, 0x02#8, 0x00#8, 0x01#8, 0x01#8, 0xAB#8, 0xCD#8, 0x19#8, 0x17#8] =
      .error .requestByteCount := by decide

/-- R60: the response `01 03 02 00 2A 39 9B` of vector V_ok_read, and the empty one of V_bc0. -/
theorem test_decode_rspRead :
    decode .wireRsp [0x01#8, 0x03#8, 0x02#8, 0x00#8, 0x2A#8, 0x39#8, 0x9B#8] =
      .ok (.rspRead 0x01#8 [0x00#8, 0x2A#8] 0x9B39#16) ∧
    decode .wireRsp [0x01#8, 0x03#8, 0x00#8, 0x20#8, 0xF0#8] = .ok (.rspRead 0x01#8 [] 0xF020#16) := by decide

/-- R61: the echo of vector V_wsingle_ok. -/
theorem test_decode_rspWriteSingleAck :
    decode .wireRsp [0x01#8, 0x06#8, 0x00#8, 0x01#8, 0x00#8, 0x03#8, 0x98#8, 0x0B#8] =
      .ok (.rspWriteSingleAck 0x01#8 0x0001#16 0x0003#16 0x0B98#16) := by decide

/-- R61: the echo of vector V_wack10_to_06. -/
theorem test_decode_rspWriteMultiAck :
    decode .wireRsp [0x01#8, 0x10#8, 0x00#8, 0x01#8, 0x00#8, 0x03#8, 0xD1#8, 0xC8#8] =
      .ok (.rspWriteMultiAck 0x01#8 0x0001#16 0x0003#16 0xC8D1#16) := by decide

/-- R62: the five-byte form of vector V_err5 and the six-byte form of V_err6. -/
theorem test_decode_rspError :
    decode .wireRsp [0x01#8, 0x83#8, 0x02#8, 0xC0#8, 0xF1#8] = .ok (.rspError 0x01#8 0x83#8 [0x02#8] 0xF1C0#16) ∧
    decode .wireRsp [0x01#8, 0x83#8, 0x00#8, 0x02#8, 0x71#8, 0xF1#8] =
      .ok (.rspError 0x01#8 0x83#8 [0x00#8, 0x02#8] 0xF171#16) := by decide

/-- Byte sequences that are no instruction of their format are refused by name (R53, R57, R59, R62, R65). -/
theorem test_decode_refuses :
    decode .cmd [] = .error .commandLength ∧ decode .cmd [0x01#8, 0x02#8] = .error .commandLength ∧
    decode .wireReq [0x01#8, 0x04#8, 0x00#8, 0x00#8] = .error .requestFunction ∧
    decode .wireReq [0x01#8, 0x03#8, 0x00#8, 0x00#8] = .error .requestLength ∧
    decode .wireReq [0x01#8, 0x10#8, 0x00#8, 0x00#8, 0x00#8, 0x7C#8, 0xF8#8] = .error .requestCount ∧
    decode .wireRsp [0x01#8, 0x83#8, 0x02#8, 0xC0#8] = .error .responseLength := by decide

/-! ### The CRC -/

set_option maxRecDepth 100000 in
/-- R79, R80: `crc_byte(0xFFFF, 0x00) = 0x40BF` and `CRC16([]) = 0xFFFF`. -/
theorem test_crcByte : crcByte 0xFFFF#16 0x00#8 = 0x40BF#16 ∧ crc16 [] = 0xFFFF#16 := by decide

set_option maxRecDepth 100000 in
/-- R81: the check value of "123456789". -/
theorem test_crc16 :
    crc16 [0x31#8, 0x32#8, 0x33#8, 0x34#8, 0x35#8, 0x36#8, 0x37#8, 0x38#8, 0x39#8] = 0x4B37#16 := by decide

/-! ### One cycle of every instruction -/

/-- R68: an idle block accepts EXCHANGE (0x20). -/
theorem test_accept :
    (stepped (withHost idle (hostCmd 0x20#8))).lastCmd = 0x20#8 ∧
    (stepped (withHost idle (hostCmd 0x20#8))).st = .stage ∧
    (stepped (withHost idle (hostCmd 0x20#8))).phase = .xStart := by decide

set_option maxRecDepth 100000 in
/-- Program P1: CRC_GEN on "123456789" leaves 0x37, 0x4B behind the digits. -/
theorem test_crcGen :
    let t := ran .crcGen (stage .crcGen .none 0x0B#8
      [0x31#8, 0x32#8, 0x33#8, 0x34#8, 0x35#8, 0x36#8, 0x37#8, 0x38#8, 0x39#8])
    t.txByte 9 = 0x37#8 ∧ t.txByte 10 = 0x4B#8 ∧ t.crcCalc = 0x4B37#16 ∧ t.status = 0x01#8 := by decide

/-- R86: the corner case `TX_LEN = 2` stamps 0xFF, 0xFF; `TX_LEN = 1` is refused. -/
theorem test_crcGen_short :
    (ran .crcGen (stage .crcGen .none 0x02#8 [])).txByte 0 = 0xFF#8 ∧
    (ran .crcGen (stage .crcGen .none 0x01#8 [])).status = 0x02#8 := by decide

set_option maxRecDepth 100000 in
/-- Program P1: CRC_CHECK on the stamped string. -/
theorem test_crcCheck :
    let t := ran .crcCheck (stage .crcChk .none 0x0B#8
      [0x31#8, 0x32#8, 0x33#8, 0x34#8, 0x35#8, 0x36#8, 0x37#8, 0x38#8, 0x39#8, 0x37#8, 0x4B#8])
    t.status = 0x01#8 ∧ t.crcMatch = true ∧ t.crcRecv = 0x4B37#16 := by decide

set_option maxRecDepth 100000 in
/-- R87, vector K5: swapped CRC bytes do not match. -/
theorem test_crcCheck_mismatch :
    let t := ran .crcCheck (stage .crcChk .none 0x08#8
      [0x01#8, 0x03#8, 0x00#8, 0x00#8, 0x00#8, 0x01#8, 0x0A#8, 0x84#8])
    t.status = 0x12#8 ∧ t.crcMatch = false ∧ t.crcRecv = 0x840A#16 ∧ t.crcCalc = 0x0A84#16 := by decide

set_option maxRecDepth 100000 in
/-- R98: unit 0x55, ADDR 0x0102, VAL 2 builds `55 03 01 02 00 02 69 E3`. -/
theorem test_buildRead :
    let t := ran .buildRead (operands (stage .bRead .none 0x00#8 []) 0x55#8 0x0102#16 0x0002#16)
    t.txFrame = [0x55#8, 0x03#8, 0x01#8, 0x02#8, 0x00#8, 0x02#8, 0x69#8, 0xE3#8] ∧ t.status = 0x01#8 := by decide

set_option maxRecDepth 100000 in
/-- R99: unit 0x01, ADDR 0x0001, VAL 3 builds `01 06 00 01 00 03 98 0B`. -/
theorem test_buildWriteSingle :
    let t := ran .buildWriteSingle (operands (stage .bWSingle .none 0x00#8 []) 0x01#8 0x0001#16 0x0003#16)
    t.txFrame = [0x01#8, 0x06#8, 0x00#8, 0x01#8, 0x00#8, 0x03#8, 0x98#8, 0x0B#8] ∧ t.status = 0x01#8 := by decide

set_option maxRecDepth 100000 in
/-- R90: the example `01 10 00 01 00 02 04 00 0A 01 02 92 30`. -/
theorem test_buildWriteMulti :
    let t := ran .buildWriteMulti (operands (stage .bWMulti .none 0x00#8
      [0x00#8, 0x00#8, 0x00#8, 0x00#8, 0x00#8, 0x00#8, 0x00#8, 0x00#8, 0x0A#8, 0x01#8, 0x02#8]) 0x01#8 0x0001#16 0x0002#16)
    t.txFrame = [0x01#8, 0x10#8, 0x00#8, 0x01#8, 0x00#8, 0x02#8, 0x04#8, 0x00#8, 0x0A#8, 0x01#8, 0x02#8, 0x92#8, 0x30#8]
      ∧ t.status = 0x01#8 := by decide

/-- R90: 124 registers are refused. -/
theorem test_buildWriteMulti_refused :
    (ran .buildWriteMulti (operands (stage .bWMulti .none 0x00#8 []) 0x01#8 0x0001#16 0x007C#16)).status = 0x02#8 := by
  decide

set_option maxRecDepth 100000 in
/-- R91, R92: PH_XSTART stamps `84 0A` and turns the line to transmit; the FIFO is flushed. -/
theorem test_exchange_start :
    let s := stage .xStart .none 0x08#8 [0x01#8, 0x03#8, 0x00#8, 0x00#8, 0x00#8, 0x01#8]
    let t := ran .exchange { s with chan := { s.chan with fifo := [0x01#8] } }
    t.txByte 6 = 0x84#8 ∧ t.txByte 7 = 0x0A#8 ∧ t.dir = true ∧ t.st = .tx ∧ t.exp = 5#9 ∧ t.chan.fifo = [] := by decide

/-- Vector V_short_read_n5: five bytes of a seven-byte read response, then a timeout. -/
theorem test_exchange_truncated :
    let t := ran .exchange (checking [0x01#8, 0x03#8, 0x02#8, 0x00#8, 0x2A#8] .read 7#9 true)
    t.status = 0x11#8 ∧ t.crcCalc = 0x0000#16 ∧ t.rxPayloadOff = 0x00#8 := by decide

/-- R98, R69: the build of READ_REGS goes on to PH_XSTART. -/
theorem test_readRegs :
    let t := ran .readRegs (operands (stage .bRead .exchange 0x00#8 []) 0x01#8 0x0000#16 0x0001#16)
    t.st = .stage ∧ t.phase = .xStart ∧ t.pend = .none ∧ t.lat = 1 ∧ t.status = 0x00#8 := by decide

/-- R107, R108: position 2 of a read response sets the expected length to bc + 5. -/
theorem test_readRegs_byteCount :
    let t := ran .readRegs (receiving [0x01#8, 0x03#8] [0xFF#8] .read 0x03#8 5#9)
    t.exp = 260#9 ∧ t.pos = 3#9 ∧ t.rxByte 2 = 0xFF#8 ∧ t.st = .rx := by decide

/-- R99, vector V_silence: nothing received is `noResponse`. -/
theorem test_writeSingle :
    (ran .writeSingle (checking [] .none 5#9 true)).status = 0x10#8 := by decide

/-- R107: the function code 0x10 makes an acknowledgement of eight bytes. -/
theorem test_writeSingle_class :
    let t := ran .writeSingle (receiving [0x01#8] [0x10#8] .none 0x00#8 5#9)
    t.cls = .wack ∧ t.exp = 8#9 ∧ t.rxFc = 0x10#8 := by decide

/-- R100: 124 registers are refused under WRITE_MULTI, with nothing transmitted. -/
theorem test_writeMulti_refused :
    let t := ran .writeMulti (operands (stage .bWMulti .exchange 0x00#8 []) 0x01#8 0x0002#16 0x007C#16)
    t.status = 0x02#8 ∧ t.st = .idle ∧ t.dir = false := by decide

/-- R105, vector V_resync: a byte that is not the unit id is dropped at position 0. -/
theorem test_writeMulti_foreign :
    let t := ran .writeMulti (receiving [] [0xAA#8, 0x01#8] .none 0x00#8 5#9)
    t.pos = 0#9 ∧ t.chan.fifo = [0x01#8] ∧ t.st = .rx := by decide

/-- R101: FLUSH_RX. -/
theorem test_flushRx :
    let s := stage .flush .none 0x00#8 []
    let t := ran .flushRx { s with chan := { s.chan with fifo := [0xEE#8, 0xFF#8] } }
    t.chan.fifo = [] ∧ t.status = 0x01#8 ∧ t.st = .idle := by decide

/-- R73: the stage of 0xFF. -/
theorem test_illegal : (ran (.illegal 0xFF#8) (stage .badOp .none 0x00#8 [])).status = 0x02#8 := by decide

/-- The three requests as frames to send. -/
def readFrame : List Byte := [0x01#8, 0x03#8, 0x00#8, 0x00#8, 0x00#8, 0x01#8, 0x84#8, 0x0A#8]

def writeFrame : List Byte := [0x01#8, 0x06#8, 0x00#8, 0x01#8, 0x00#8, 0x03#8, 0x98#8, 0x0B#8]

def multiFrame : List Byte :=
  [0x01#8, 0x10#8, 0x00#8, 0x02#8, 0x00#8, 0x01#8, 0x02#8, 0xAB#8, 0xCD#8, 0x19#8, 0x17#8]

/-- R94: byte 6 of a read request is its low CRC byte. -/
theorem test_reqReadHolding :
    let t := ran (.reqReadHolding 0x01#8 0x0000#16 0x0001#16 0x0A84#16) (sending readFrame 0x06#8)
    t.chan.unsent = [0x84#8] ∧ t.txi = 0x07#8 ∧ t.st = .tx := by decide

/-- R94: the last byte of a write-single request moves the block to DRAIN. -/
theorem test_reqWriteSingle :
    let t := ran (.reqWriteSingle 0x01#8 0x0001#16 0x0003#16 0x0B98#16) (sending writeFrame 0x07#8)
    t.chan.unsent = [0x0B#8] ∧ t.st = .drain := by decide

/-- R94: byte 7 of a write-multiple request is its first data byte. -/
theorem test_reqWriteMulti :
    let t := ran (.reqWriteMulti 0x01#8 0x0002#16 0x0001#16 [0xAB#8, 0xCD#8] 0x1719#16) (sending multiFrame 0x07#8)
    t.chan.unsent = [0xAB#8] ∧ t.txi = 0x08#8 := by decide

/-- The responses of vectors V_ok_read, V_wsingle_ok, V_wack10_to_06, V_err5 and V_err6. -/
def okRead : State := checking [0x01#8, 0x03#8, 0x02#8, 0x00#8, 0x2A#8, 0x39#8, 0x9B#8] .read 7#9 false

def okWrite : State :=
  checking [0x01#8, 0x06#8, 0x00#8, 0x01#8, 0x00#8, 0x03#8, 0x98#8, 0x0B#8] .wack 8#9 false

def okMulti : State :=
  checking [0x01#8, 0x10#8, 0x00#8, 0x01#8, 0x00#8, 0x03#8, 0xD1#8, 0xC8#8] .wack 8#9 false

def err5 : State := checking [0x01#8, 0x83#8, 0x02#8, 0xC0#8, 0xF1#8] .err 6#9 true

def err6 : State := checking [0x01#8, 0x83#8, 0x00#8, 0x02#8, 0x71#8, 0xF1#8] .err 6#9 false

set_option maxRecDepth 100000 in
/-- Vector V_ok_read. -/
theorem test_rspRead :
    let t := stepped okRead
    okRead.current = some (.rspRead 0x01#8 [0x00#8, 0x2A#8] 0x9B39#16) ∧ t.status = 0x16#8 ∧
    t.rxPayloadOff = 0x03#8 ∧ t.rxPayloadLen = 0x02#8 ∧ t.crcCalc = 0x9B39#16 ∧ t.crcMatch = true := by decide

set_option maxRecDepth 100000 in
/-- Vector V_badcrc. -/
theorem test_rspRead_badCrc :
    let t := stepped (checking [0x01#8, 0x03#8, 0x02#8, 0x00#8, 0x2A#8, 0x39#8, 0x9A#8] .read 7#9 false)
    t.status = 0x12#8 ∧ t.rxPayloadLen = 0x02#8 ∧ t.crcRecv = 0x9A39#16 ∧ t.crcMatch = false := by decide

set_option maxRecDepth 100000 in
/-- Vector V_wsingle_ok. -/
theorem test_rspWriteSingleAck :
    let t := stepped okWrite
    t.status = 0x14#8 ∧ t.rxPayloadOff = 0x02#8 ∧ t.rxPayloadLen = 0x04#8 ∧ t.crcRecv = 0x0B98#16 := by decide

set_option maxRecDepth 100000 in
/-- Vector V_wack10_to_06. -/
theorem test_rspWriteMultiAck :
    let t := stepped okMulti
    t.status = 0x15#8 ∧ t.rxPayloadOff = 0x02#8 ∧ t.rxPayloadLen = 0x04#8 ∧ t.crcRecv = 0xC8D1#16 := by decide

set_option maxRecDepth 100000 in
/-- Vector V_err5: a timeout after five bytes is the short error form. -/
theorem test_rspError :
    let t := stepped err5
    t.status = 0x13#8 ∧ t.rxPayloadOff = 0x02#8 ∧ t.rxPayloadLen = 0x01#8 ∧ t.crcCalc = 0xF1C0#16 := by decide

set_option maxRecDepth 100000 in
/-- Vector V_err5_noise55. -/
theorem test_rspError_noise :
    let t := stepped (checking [0x01#8, 0x83#8, 0x02#8, 0xC0#8, 0xF1#8, 0x55#8] .err 6#9 false)
    t.status = 0x12#8 ∧ t.rxPayloadLen = 0x02#8 ∧ t.crcCalc = 0x00F1#16 ∧ t.crcRecv = 0x55F1#16 := by decide

/-- The word of a table row is the instruction that the next step runs, from reset on: a command, a response, a request
and an acknowledgement. -/
theorem test_withFetchWord :
    ∀ p ∈ [(8, 0x40, Instr.flushRx), (8, 0x03, .rspRead 0x00#8 [] 0x0000#16),
        (16, 0x03, .reqReadHolding 0x00#8 0x0000#16 0x0000#16 0x0000#16),
        (16, 0x10, .rspWriteMultiAck 0x00#8 0x0000#16 0x0000#16 0x0000#16)],
      decodeTableWord p.1 p.2.1 = some p.2.2 ∧ (State.reset.withFetchWord p.1 p.2.1).current = some p.2.2 ∧
        (State.reset.withFetchWord p.1 p.2.1).input.rst = false := by decide

/-! ### Witnesses: states and operands that meet the hypotheses of the statements -/

/-- A cycle's inputs with bytes arriving, or leaving the line. -/
def arriving (bs : List Byte) : CycleInput := { quietInput with arrivals := bs }

def leaving (n : Nat) : CycleInput := { quietInput with left := n }

def resetting : CycleInput := { quietInput with rst := true }

def stalled : CycleInput := { quietInput with txReady := false }

set_option maxRecDepth 100000 in
/-- DecodeOfEncode, at the edges of the operands. -/
theorem test_witness_wellFormed :
    (Instr.illegal 0x00#8).WellFormed ∧ (Instr.illegal 0xFF#8).WellFormed ∧
    (Instr.reqReadHolding 0x01#8 0x0000#16 0x0001#16 0x0A84#16).WellFormed ∧
    (Instr.reqWriteSingle 0x01#8 0x0001#16 0x0003#16 0x0B98#16).WellFormed ∧
    (Instr.reqWriteMulti 0x01#8 0x0002#16 0x0001#16 [0xAB#8, 0xCD#8] 0x1719#16).WellFormed ∧
    (Instr.rspRead 0x01#8 [] 0x0000#16).WellFormed ∧ (Instr.rspError 0x01#8 0x83#8 [0x02#8] 0x0000#16).WellFormed ∧
    (Instr.rspError 0x01#8 0x83#8 [0x00#8, 0x02#8] 0x0000#16).WellFormed := by decide

/-- DecodeOfEncode: the longest write-multiple request. -/
theorem test_witness_wellFormed_multi (d : List Byte) (h : d.length = 246) :
    (Instr.reqWriteMulti 0x01#8 0x0002#16 0x007B#16 d (crc16 (multiBody 0x01#8 0x0002#16 0x007B#16 d))).WellFormed := by
  exact decide_eq_true ⟨by decide, by rw [h]; decide, rfl⟩

set_option maxRecDepth 100000 in
/-- DecodedInstructionIsWellFormed: each format, a request with a fitting CRC among them. -/
theorem test_witness_decoded :
    decode .cmd [0x77#8] = .ok (.illegal 0x77#8) ∧
    decode .wireReq readFrame = .ok (.reqReadHolding 0x01#8 0x0000#16 0x0001#16 0x0A84#16) ∧
    crcValid readFrame = true ∧
    decode .wireRsp [0x01#8, 0x83#8, 0x02#8, 0xC0#8, 0xF1#8] = .ok (.rspError 0x01#8 0x83#8 [0x02#8] 0xF1C0#16) := by
  decide

set_option maxRecDepth 100000 in
/-- OneByteChangeIsDetected: the shortest frame and a longer one. -/
theorem test_witness_valid :
    crcValid [0xFF#8, 0xFF#8] = true ∧ [0xFF#8, 0xFF#8][1]? ≠ some 0xFE#8 ∧ crcValid readFrame = true ∧
    2 ≤ readFrame.length ∧ readFrame[0]? ≠ some 0x00#8 := by decide

/-- AcceptanceOfCommands, StatusIsWrittenByFinishOnly, StageCountsDown and IllegalOpcodeEndsInCommandError. -/
theorem test_witness_stages :
    idle.st = .idle ∧
    (let s := stage .badOp .none 0x00#8 []
     s.st ≠ .idle ∧ s.input.rst = false ∧ step s = .next (stepped s) ∧ (stepped s).status ≠ s.status ∧
       s.st = .stage ∧ s.phase = .badOp ∧ s.lat ≤ 1) ∧
    (let s := { stage .badOp .none 0x00#8 [] with lat := 2 }
     Instr.crcGen.format = .cmd ∧ s.st = .stage ∧ 1 < s.lat) ∧
    0x00#8 ∉ legalOpcodes ∧ 0xFF#8 ∉ legalOpcodes :=
  ⟨rfl, ⟨by decide, rfl, step_stepped _, by decide, rfl, rfl, by decide⟩, by decide, by decide, by decide⟩

/-- NonExchangeCommandTiming, with a latency draw of 1 and of 2. -/
theorem test_witness_timing :
    (let s := withInputs (withHost idle (hostCmd 0x40#8)) (quietInput :: ([quietInput] ++ []))
     s.st = .idle ∧ s.bus.we = true ∧ s.bus.addr = addrCmd ∧ s.bus.wdata = 0x40#8 ∧ (firstPhase 0x40#8).2 = .none ∧
       (firstPhase 0x40#8).1 ≠ .xStart ∧ s.env.inputs = quietInput :: ([quietInput] ++ []) ∧ quietInput.rst = false ∧
       (∀ i ∈ [quietInput], i.rst = false) ∧ [quietInput].length = quietInput.extraLat + 1) ∧
    (let x : CycleInput := { quietInput with extraLat := 1 }
     let s := withInputs (withHost idle (hostCmd 0xFF#8)) (x :: ([quietInput, quietInput] ++ []))
     s.st = .idle ∧ s.bus.we = true ∧ s.bus.addr = addrCmd ∧ s.bus.wdata = 0xFF#8 ∧ (firstPhase 0xFF#8).2 = .none ∧
       (firstPhase 0xFF#8).1 ≠ .xStart ∧ s.env.inputs = x :: ([quietInput, quietInput] ++ []) ∧ x.rst = false ∧
       (∀ i ∈ [quietInput, quietInput], i.rst = false) ∧ [quietInput, quietInput].length = x.extraLat + 1) := by
  decide

/-- CrcGenStampsTheFrame and CrcCheckComparesTheFrame, at both sides of the length check and at the longest frame. -/
theorem test_witness_crc :
    (∀ n ∈ [0x00#8, 0x01#8], (stage .crcGen .none n []).txCount < 2 ∧ (stage .crcChk .none n []).txCount < 2) ∧
    (∀ n ∈ [0x02#8, 0xFF#8], 2 ≤ (stage .crcGen .none n []).txCount ∧ 2 ≤ (stage .crcChk .none n []).txCount) ∧
    (stage .crcGen .none 0x02#8 []).st = .stage ∧ (stage .crcGen .none 0x02#8 []).phase = .crcGen ∧
    (stage .crcChk .none 0x02#8 []).phase = .crcChk ∧ (stage .crcGen .none 0x02#8 []).lat ≤ 1 := by decide

/-- CrcCheckAfterCrcGenMatches: the hypotheses on the state, and the two outcomes that every state has. -/
theorem test_witness_checkAfterGen :
    ((stage .crcGen .none 0x02#8 []).st = .stage ∧ (stage .crcGen .none 0x02#8 []).phase = .crcGen ∧
      (stage .crcGen .none 0x02#8 []).lat ≤ 1 ∧ 2 ≤ (stage .crcGen .none 0x02#8 []).txCount) ∧
    ∀ s : State, ∃ t u, exec .crcGen s = .next t ∧
      exec .crcCheck { t with st := .stage, phase := .crcChk, lat := 1 } = .next u := by
  refine ⟨by decide, fun s => ?_⟩
  obtain ⟨t, ht⟩ := exec_total .crcGen s
  obtain ⟨u, hu⟩ := exec_total .crcCheck { t with st := .stage, phase := .crcChk, lat := 1 }
  exact ⟨t, u, ht, hu⟩

/-- BuildReadWritesTheRequest, BuildWriteSingleWritesTheRequest, BuildWriteMultiWritesTheRequest and
CompositeBuildContinuesIntoExchange, at 0, 123 and 124 registers. -/
theorem test_witness_builds (ph : Phase) (pd : Pend) (n : Word) :
    (operands (stage ph pd 0x00#8 []) 0x01#8 0x0001#16 n).st = .stage ∧
    (operands (stage ph pd 0x00#8 []) 0x01#8 0x0001#16 n).phase = ph ∧
    (operands (stage ph pd 0x00#8 []) 0x01#8 0x0001#16 n).pend = pd ∧
    (operands (stage ph pd 0x00#8 []) 0x01#8 0x0001#16 n).lat ≤ 1 ∧
    (operands (stage ph pd 0x00#8 []) 0x01#8 0x0001#16 n).val = n ∧
    (0x0000#16).toNat ≤ 123 ∧ (0x007B#16).toNat ≤ 123 ∧ 123 < (0x007C#16).toNat :=
  ⟨rfl, rfl, rfl, Nat.le_refl 1, rfl, by decide, by decide, by decide⟩

/-- ExchangeStartStampsClearsAndFlushes and ExchangeStartForgetsEarlierResults. -/
theorem test_witness_exchangeStart :
    (∀ i ∈ [Instr.exchange, .readRegs, .writeSingle, .writeMulti], isExchangeCommand i = true) ∧
    (stage .xStart .none 0x01#8 []).txCount < 2 ∧
    (let s := stage .xStart .none 0x02#8 [0x00#8, 0x00#8]
     let s' := { s with rxFc := 0x83#8, crcMatch := true, chan := { s.chan with fifo := [0x01#8] } }
     s.st = .stage ∧ s'.st = .stage ∧ s.phase = .xStart ∧ s'.phase = .xStart ∧ s.lat ≤ 1 ∧ s'.lat ≤ 1 ∧
       s.txLen = s'.txLen ∧ s.txFrame = s'.txFrame ∧ 2 ≤ s.txCount ∧ exec .exchange s = .next (ran .exchange s) ∧
       exec .exchange s' = .next (ran .exchange s')) :=
  ⟨by decide, by decide, rfl, rfl, rfl, rfl, by decide, by decide, rfl, rfl, by decide, exec_ran _ _, exec_ran _ _⟩

/-- TransmitCycleHandsOverOneByte: each request, each clause. -/
theorem test_witness_transmit :
    (∀ f ∈ [(Instr.reqReadHolding 0x01#8 0x0000#16 0x0001#16 0x0A84#16, readFrame),
        (Instr.reqWriteSingle 0x01#8 0x0001#16 0x0003#16 0x0B98#16, writeFrame),
        (Instr.reqWriteMulti 0x01#8 0x0002#16 0x0001#16 [0xAB#8, 0xCD#8] 0x1719#16, multiFrame)],
      f.1.format = .wireReq ∧ encode f.1 = (sending f.2 0x00#8).txFrame) ∧
    (sending readFrame 0x00#8).st = .tx ∧ (sending readFrame 0x00#8).txi.toNat < (sending readFrame 0x00#8).txCount ∧
    (withInputs (sending readFrame 0x00#8) [stalled]).input.txReady = false ∧
    (sending readFrame 0x00#8).input.txReady = true ∧
    (sending readFrame 0x06#8).txi.toNat + 1 ≠ (sending readFrame 0x06#8).txCount ∧
    (sending readFrame 0x07#8).txi.toNat + 1 = (sending readFrame 0x07#8).txCount := by decide

/-- WholeFrameGoesOutInOrder. -/
theorem test_witness_wholeFrame :
    let ins := List.replicate 8 quietInput
    let s := withInputs (sending readFrame 0x00#8) (ins ++ [])
    s.st = .tx ∧ s.txi = 0x00#8 ∧ 1 ≤ s.txCount ∧ s.env.inputs = ins ++ [] ∧ ins.length = s.txCount ∧
      ∀ i ∈ ins, i.rst = false ∧ i.txReady = true := by decide

/-- DrainFlushesAndTurnsRound and StalledChannelKeepsTheCommandRunning: both clauses of each. -/
theorem test_witness_drain :
    let s := { sending readFrame 0x07#8 with st := .drain }
    let s' := { s with chan := { s.chan with unsent := [0x0A#8] } }
    s.st = .drain ∧ s.chan.unsent = [] ∧ s'.st = .drain ∧ s'.chan.unsent ≠ [] ∧
      (withInputs s' ([quietInput] ++ [])).env.inputs = [quietInput] ++ [] ∧
      (∀ i ∈ [quietInput], i.rst = false ∧ i.left = 0) ∧
      (withInputs (sending readFrame 0x00#8) ([stalled] ++ [])).st = .tx ∧
      (∀ i ∈ [stalled], i.rst = false ∧ i.txReady = false) := by decide

/-- FlushRxEmptiesTheFifo. -/
theorem test_witness_flush :
    let s := stage .flush .none 0x00#8 []
    s.st = .stage ∧ s.phase = .flush ∧ s.lat ≤ 1 := by decide

/-- ForeignByteIsDiscarded and AcceptedByteIsStoredAndClassified: positions 0, 1, 2 and the last one. -/
theorem test_witness_accept :
    (let s := receiving [] [0xAA#8] .none 0x00#8 5#9
     s.st = .rx ∧ s.chan.fifo = 0xAA#8 :: [] ∧ s.pos = 0#9 ∧ 0xAA#8 ≠ s.unitId) ∧
    (let s := receiving [] [0x01#8] .none 0x00#8 5#9
     s.chan.fifo = 0x01#8 :: [] ∧ (s.pos ≠ 0#9 ∨ 0x01#8 = s.unitId) ∧ s.pos.toNat < 260 ∧ s.pos ≠ 1#9) ∧
    (∀ b ∈ [0x03#8, 0x06#8, 0x10#8, 0x83#8],
      let s := receiving [0x01#8] [b] .none 0x00#8 5#9
      s.chan.fifo = b :: [] ∧ (s.pos ≠ 0#9 ∨ b = s.unitId) ∧ s.pos.toNat < 260 ∧ s.pos = 1#9) ∧
    (let s := receiving [0x01#8, 0x03#8] [0x00#8] .read 0x03#8 5#9
     s.pos = 2#9 ∧ s.cls = .read ∧ s.pos.toNat < 260) ∧
    (let s := { receiving [] [0x3C#8] .read 0x03#8 260#9 with pos := 259#9 }
     (s.pos ≠ 0#9 ∨ 0x3C#8 = s.unitId) ∧ s.pos.toNat < 260 ∧ (ran .exchange s).pos = (ran .exchange s).exp) := by
  decide

/-- EmptyReceiveCycleCountsOrTimesOut and WaitTimesOutAfterTimeoutCycles: both clauses of each. -/
theorem test_witness_wait :
    let s := receiving [0x01#8] [] .none 0x00#8 5#9
    s.st = .rx ∧ s.chan.fifo = [] ∧ s.wctr ≠ s.env.params.pollTries * s.env.params.pollDelay ∧
      { s with wctr := 1 }.wctr = s.env.params.pollTries * s.env.params.pollDelay ∧ s.wctr = 0 ∧
      (∀ n ∈ [0, 1], n ≤ s.timeout ∧ (List.replicate n quietInput).length = n) ∧
      (List.replicate 2 quietInput).length = s.timeout + 1 ∧
      (withInputs s (List.replicate 2 quietInput ++ [])).env.inputs = List.replicate 2 quietInput ++ [] ∧
      ∀ i ∈ List.replicate 2 quietInput, i.rst = false ∧ i.arrivals = [] := by decide

/-- ForeignBytesKeepTheLoopAtPositionZero: a queued byte, then gaps of TIMEOUT cycles between the bytes. -/
theorem test_witness_foreign :
    let ins := [quietInput, arriving [0xAA#8], quietInput, arriving [0xBB#8]]
    let s := withInputs (receiving [] [0xCC#8] .none 0x00#8 5#9) (ins ++ [])
    s.st = .rx ∧ s.pos = 0#9 ∧ s.wctr = 0 ∧ (∀ b ∈ s.chan.fifo, b ≠ s.unitId) ∧ s.env.inputs = ins ++ [] ∧
      (∀ i ∈ ins, i.rst = false ∧ ∀ b ∈ i.arrivals, b ≠ s.unitId) ∧
      ∀ k, k + s.timeout < ins.length → ∃ i ∈ (ins.drop k).take (s.timeout + 1), i.arrivals ≠ [] := by
  refine ⟨rfl, rfl, rfl, by decide, rfl, by decide, fun k hk => ?_⟩
  have : k < 3 := Nat.lt_of_add_lt_add_right hk
  interval_cases k <;> decide

/-- CheckClassifiesInOrder: each of its three tests, the shortest frame and the short error form among them. -/
theorem test_witness_check :
    (let s := checking [] .none 5#9 true
     s.st = .check ∧ s.lat ≤ 1 ∧ s.pos = 0#9) ∧
    (let s := checking [0x01#8, 0x83#8, 0x02#8, 0xC0#8] .err 6#9 true
     s.pos ≠ 0#9 ∧ s.tmo = true ∧ ¬ (s.cls = .err ∧ s.pos = 5#9)) ∧
    (let s := checking [0x01#8, 0x03#8] .read 2#9 false
     2 ≤ s.pos.toNat ∧ (s.tmo = false ∨ s.cls = .err ∧ s.pos = 5#9)) ∧
    (2 ≤ err5.pos.toNat ∧ err5.tmo = true ∧ (err5.tmo = false ∨ err5.cls = .err ∧ err5.pos = 5#9)) := by decide

/-- ReadResponseIsClassified, WriteAcknowledgementIsClassified, ErrorResponseIsClassified and
ErrorFrameFollowedByNoise. -/
theorem test_witness_responses :
    ([] : List Byte).length ≤ 255 ∧ (List.replicate 255 0x00#8).length ≤ 255 ∧ okRead.st = .check ∧ okRead.lat ≤ 1 ∧
    0x83#8 ≠ 0x03#8 ∧ 0x83#8 ≠ 0x06#8 ∧ 0x83#8 ≠ 0x10#8 ∧ [0x02#8].length = 1 ∧ [0x00#8, 0x02#8].length = 2 ∧
    err5.st = .check ∧ err5.lat ≤ 1 :=
  ⟨by decide, by rw [List.length_replicate], by decide, by decide, by decide, by decide, by decide, rfl, rfl, rfl,
    by decide⟩

/-- CheckedFrameIsComplete and CompleteResponseIsTheCurrentInstruction: each class, and the short error form. -/
theorem test_witness_complete :
    ∀ s ∈ [okRead, okWrite, okMulti, err5, err6],
      s.rxInv ∧ s.st = .check ∧ s.pos ≠ 0#9 ∧ (s.tmo = false ∨ s.cls = .err ∧ s.pos = 5#9) := by
  intro s hs
  simp only [List.mem_cons, List.not_mem_nil, or_false] at hs
  rcases hs with rfl | rfl | rfl | rfl | rfl <;>
    exact ⟨⟨by decide, by decide, by decide, by decide, by decide, by decide⟩, rfl, by decide, by decide⟩

/-- R102, R103: a byte queued at the start and two bytes that arrive together after an empty cycle, as a timed stream. -/
theorem test_gapsOf :
    gapsOf 0 ([0x55#8].map (fun b => (0, b)) ++ deliveriesOf 0 [[], [], [0x01#8, 0x03#8], [], [0x02#8]]) =
      [(0, 0x55#8), (1, 0x01#8), (0, 0x03#8), (0, 0x02#8)] := by decide

/-- ReceiveAgreesWithTransactionLevel: silence, and a burst behind an empty cycle, with a byte queued at the start. -/
theorem test_witness_receiveLevel :
    ∀ arr ∈ [[], [[], [0x01#8, 0x03#8]]],
      let s0 := receiving [] [0x55#8] .none 0x00#8 5#9
      let quiet := s0.chan.fifo.length + arr.flatten.length + s0.timeout + 1
      let ins := (arr ++ List.replicate quiet []).map arriving
      let rest := [quietInput]
      let s := withInputs s0 (ins ++ rest)
      s.st = .rx ∧ s.rxInv ∧ s.wctr = 0 ∧ s.env.inputs = ins ++ rest ∧
        ins.map (·.arrivals) =
          arr ++ List.replicate (s.chan.fifo.length + arr.flatten.length + s.timeout + 1) [] ∧
        (∀ i ∈ s.env.inputs, i.rst = false) ∧ ∀ i ∈ ins, i.extraLat + 1 ≤ rest.length := by
  intro arr hs
  simp only [List.mem_cons, List.not_mem_nil, or_false] at hs
  rcases hs with rfl | rfl <;>
    exact ⟨rfl, ⟨by decide, by decide, rfl, by decide, rfl, by decide, by decide, by decide⟩, rfl, rfl, rfl,
      by decide, by decide⟩

/-- ExchangeAgreesWithTransactionLevel: the shortest frame, with stale bytes on the line and in the FIFO, and a burst. -/
theorem test_witness_exchangeLevel :
    let s0 := stage .xStart .none 0x02#8 []
    let arr := [[0x01#8, 0x03#8], [], [0x00#8]]
    let txs := [quietInput, quietInput]
    let ins := (arr ++ List.replicate (arr.flatten.length + s0.timeout + 1) []).map arriving
    let rest := [quietInput]
    let s := { withInputs s0 (quietInput :: (txs ++ leaving 3 :: (ins ++ rest))) with
      chan := { fifo := [0x55#8], unsent := [0x99#8], sent := [] } }
    s.st = .stage ∧ s.phase = .xStart ∧ s.pend = .none ∧ s.lat = 1 ∧ 2 ≤ s.txCount ∧
      s.env.inputs = quietInput :: (txs ++ leaving 3 :: (ins ++ rest)) ∧ txs.length = s.txCount ∧
      (∀ i ∈ txs, i.txReady = true) ∧ s.chan.unsent.length + s.txCount ≤ (leaving 3).left ∧
      ins.map (·.arrivals) = arr ++ List.replicate (arr.flatten.length + s.timeout + 1) [] ∧
      (∀ i ∈ s.env.inputs, i.rst = false) ∧ ∀ i ∈ ins, i.extraLat + 1 ≤ rest.length := by decide

/-- HostWriteIsReadBack: the first and last register and both ends of `TX_BUF`. -/
theorem test_witness_hostWrite :
    ∀ a ∈ [0x003#11, 0x008#11, 0x014#11, 0x017#11, 0x100#11, 0x1FE#11],
      let s := withHost idle (hostWr a 0x5A#8)
      s.st = .idle ∧ s.input.rst = false ∧ s.bus.we = true ∧ writableLocation s.bus.addr = true := by decide

/-- ReadOnlyAndReservedWritesAreIgnored: the locations beside the writable ones. -/
theorem test_witness_ignoredWrite :
    ∀ a ∈ [0x001#11, 0x002#11, 0x009#11, 0x013#11, 0x018#11, 0x0FF#11, 0x1FF#11, 0x200#11, 0x400#11, 0x7FF#11],
      let s := withHost idle (hostWr a 0x5A#8)
      s.st = .idle ∧ s.input.rst = false ∧ s.bus.we = true ∧ writableLocation s.bus.addr = false ∧
        s.bus.addr ≠ addrCmd := by decide

/-- HostAccessWhileBusyChangesNothing, HostReadHasNoSideEffect and OperandRegistersAreTheHosts. -/
theorem test_witness_hostRead :
    (stage .bRead .none 0x00#8 []).st ≠ .idle ∧
    (let s := withHost idle (hostRd 0x001#11)
     s.st = .idle ∧ s.input.rst = false ∧ s.bus.we = false ∧ s.bus.re = true ∧ step s = .next (stepped s)) :=
  ⟨by decide, rfl, rfl, rfl, rfl, step_stepped _⟩

/-- WaitLoopPollsBusy: a busy and an idle block. -/
theorem test_witness_waitLoop :
    (let s := withHost (stage .badOp .none 0x00#8 []) .wait
     s.env.host = .wait :: [] ∧ step s = .next (stepped s) ∧ s.busy = true) ∧
    (let s := withHost idle .wait
     s.env.host = .wait :: [] ∧ step s = .next (stepped s) ∧ s.busy = false) :=
  ⟨⟨rfl, step_stepped _, rfl⟩, rfl, step_stepped _, rfl⟩

/-- StepRunsTheCurrentInstruction: each clause. -/
theorem test_witness_stepRuns :
    (okRead.input.rst = false ∧
      okRead.beginCycle.current = some (.rspRead 0x01#8 [0x00#8, 0x2A#8] 0x9B39#16)) ∧
    (let s := withHost idle (hostCmd 0x20#8)
     s.st = .idle ∧ s.bus.we = true ∧ s.bus.addr = addrCmd ∧ decode .cmd [s.bus.wdata] = .ok .exchange) ∧
    (let s := sending readFrame 0x00#8
     s.st = .tx ∧ decode .wireReq s.txFrame = .ok (.reqReadHolding 0x01#8 0x0000#16 0x0001#16 0x0A84#16)) ∧
    (let s := { receiving [] [] .none 0x00#8 5#9 with op := 0x30#8 }
     (s.st = .stage ∨ s.st = .drain ∨ s.st = .rx) ∧ decode .cmd [s.op] = .ok .readRegs) := by decide

/-- ResetStepLeavesTheResetState: in a cycle with a host read too. -/
theorem test_witness_reset :
    let s := withHost (withInputs okRead [resetting]) (hostRd 0x001#11)
    s.input.rst = true ∧ s.bus.re = true := by decide

/-- ChannelFollowsTheOutputs: each output at 1, a host read, and a phase bookkeeping that holds. -/
theorem test_witness_outputs :
    (let s := withHost (sending readFrame 0x07#8) (hostRd 0x002#11)
     s.input.rst = false ∧ s.bus.re = true ∧ step s = .next (stepped s) ∧ s.phaseInv ∧
       (stepped s).env.out.txValid = true ∧ (stepped s).env.out.txData = 0x0A#8 ∧ (stepped s).env.out.dir = true ∧
       (stepped s).env.out.hRdata = 0x03#8) ∧
    (let s := receiving [0x01#8] [0x03#8] .none 0x00#8 5#9
     s.input.rst = false ∧ step s = .next (stepped s) ∧ s.phaseInv ∧ (stepped s).env.out.rxPop = true) ∧
    (let s := stage .flush .none 0x00#8 []
     s.input.rst = false ∧ step s = .next (stepped s) ∧ s.phaseInv ∧ (stepped s).env.out.rxFlush = true) := by
  refine ⟨⟨rfl, rfl, step_stepped _, ⟨rfl, rfl⟩, by decide, by decide, by decide, by decide⟩,
    ⟨rfl, step_stepped _, ⟨rfl, rfl⟩, by decide⟩, rfl, step_stepped _, ⟨by decide, by decide, by decide⟩, by decide⟩

/-- BufferWriters: a step that writes a byte of each buffer. -/
theorem test_witness_bufferWriters :
    (let s := { (receiving [0x01#8] [0x83#8] .none 0x00#8 5#9).writeRx 1 0x00#8 with lat := 0 }
     s.input.rst = false ∧ (stepped s).rxByte 1 ≠ s.rxByte 1) ∧
    (let s := withHost (idle.writeTx 0 [0x00#8]) (hostWr 0x100#11 0x5A#8)
     s.input.rst = false ∧ (stepped s).txByte 0 ≠ s.txByte 0) := by decide

/-- One state with the invariant for each control state: InvIsKeptByEveryStep, ControlStateTransitions,
MemoryStaysCanonical, DirectionFollowsTransmission, LengthInferenceStaysRight and StatusStaysLegal. -/
theorem test_witness_inv_idle : idle.Inv := by
  refine ⟨?_, ?_, ?_, ?_, ?_, ?_, ?_⟩
  · show Memory.wf _ = true; decide
  · show idle.status ∈ writtenStatuses; decide
  · show idle.dir = true ↔ _; decide
  · exact ⟨rfl, rfl, rfl⟩
  · exact ⟨by decide, by decide⟩
  · exact ⟨by decide, trivial⟩
  · exact .inl rfl

theorem test_witness_inv_stage (ph : Phase) (pd : Pend)
    (h : (ph, pd) ∈ [(Phase.bWMulti, Pend.exchange), (.xStart, .none), (.flush, .none)]) :
    (stage ph pd 0x02#8 []).Inv := by
  simp only [List.mem_cons, List.not_mem_nil, or_false, Prod.mk.injEq] at h
  rcases h with ⟨rfl, rfl⟩ | ⟨rfl, rfl⟩ | ⟨rfl, rfl⟩ <;>
  · refine ⟨?_, ?_, ?_, ?_, ?_, ?_, ?_⟩
    · show Memory.wf _ = true; decide
    · show idle.status ∈ writtenStatuses; decide
    · show idle.dir = true ↔ Control.stage = .tx ∨ Control.stage = .drain; decide
    · exact ⟨by decide, by decide, by decide⟩
    · exact ⟨by decide, by decide⟩
    · exact ⟨by decide, trivial⟩
    · exact .inl rfl

theorem test_witness_inv_tx : (sending readFrame 0x07#8).Inv := by
  refine ⟨?_, ?_, ?_, ?_, ?_, ?_, ?_⟩
  · show Memory.wf _ = true; decide
  · show idle.status ∈ writtenStatuses; decide
  · show true = true ↔ Control.tx = .tx ∨ Control.tx = .drain; decide
  · exact ⟨rfl, rfl⟩
  · exact ⟨by decide, by decide⟩
  · exact ⟨by decide, rfl, rfl, rfl, by decide, by decide, by decide⟩
  · exact .inl rfl

theorem test_witness_inv_drain : ({ sending readFrame 0x07#8 with st := .drain } : State).Inv := by
  refine ⟨?_, ?_, ?_, ?_, ?_, ?_, ?_⟩
  · show Memory.wf _ = true; decide
  · show idle.status ∈ writtenStatuses; decide
  · show true = true ↔ Control.drain = .tx ∨ Control.drain = .drain; decide
  · exact ⟨rfl, rfl⟩
  · exact ⟨by decide, by decide⟩
  · exact ⟨by decide, rfl, rfl, rfl, by decide, by decide, by decide⟩
  · exact .inl rfl

theorem test_witness_inv_rx : (receiving [0x01#8] [] .none 0x00#8 5#9).Inv := by
  refine ⟨?_, ?_, ?_, ?_, ?_, ?_, ?_⟩
  · show Memory.wf _ = true; decide
  · show idle.status ∈ writtenStatuses; decide
  · show false = true ↔ Control.rx = .tx ∨ Control.rx = .drain; decide
  · exact ⟨rfl, rfl⟩
  · exact ⟨by decide, by decide⟩
  · exact ⟨by decide, by decide, rfl, by decide, rfl, by decide, by decide, by decide⟩
  · exact .inl rfl

theorem test_witness_inv_check : okRead.Inv := by
  refine ⟨?_, ?_, ?_, ?_, ?_, ?_, ?_⟩
  · show Memory.wf _ = true; decide
  · show idle.status ∈ writtenStatuses; decide
  · show false = true ↔ Control.check = .tx ∨ Control.check = .drain; decide
  · exact ⟨rfl, rfl, by decide⟩
  · exact ⟨by decide, by decide⟩
  · exact ⟨by decide, by decide, by decide, by decide, by decide, by decide⟩
  · exact .inl rfl

/-- ControlStateTransitions: the conditions of its rows that the states above do not already meet. -/
theorem test_witness_transitions :
    (withInputs idle [resetting]).input.rst = true ∧ (withHost idle (hostCmd 0x20#8)).bus.addr = addrCmd ∧
    (withHost idle hostIdle).bus.we = false ∧ 2 ≤ (stage .xStart .none 0x02#8 []).txCount ∧
    (stage .flush .none 0x02#8 []).lat = 1 ∧ (sending readFrame 0x07#8).txi.toNat + 1 = (sending readFrame 0x07#8).txCount ∧
    (sending readFrame 0x00#8).txi.toNat + 1 < (sending readFrame 0x00#8).txCount ∧
    (withInputs (receiving [0x01#8] [] .none 0x00#8 5#9) [arriving [0x03#8]]).input.arrivals = 0x03#8 :: [] ∧
    (receiving [0x01#8] [] .none 0x00#8 5#9).wctr < (receiving [0x01#8] [] .none 0x00#8 5#9).timeout := by decide

end Sys2Proof.Tests
end

section
/-! SUPPORT. What one step makes of the state held during its cycle, and which memory cells it writes. -/

namespace Sys2Proof.Machine

/-! ### One step, inverted -/

/-- The three edges of a step (R120, R145): reset, the host access of an idle block, the block's own cycle. -/
theorem step_edge {s t : State} (h : step s = .next t) :
    ∃ u, t = s.beginCycle.endCycle u ∧
      (s.input.rst = true ∧ u = s.beginCycle.resetEdge ∨
       s.input.rst = false ∧ s.st = .idle ∧ u = s.beginCycle.hostCycle ∨
       s.input.rst = false ∧ s.st ≠ .idle ∧ u = s.beginCycle.blockCycle) := by
  rw [step_eq] at h
  refine ⟨_, (Outcome.next_inj h).symm, ?_⟩
  cases hr : s.input.rst
  · by_cases hs : s.st = .idle
    · exact .inr (.inl ⟨rfl, hs, by simp [hs]⟩)
    · exact .inr (.inr ⟨rfl, hs, by simp [hs]⟩)
  · exact .inl ⟨rfl, by simp⟩

/-- A step of a busy block without reset is the block's own cycle. -/
theorem step_busy {s : State} (hr : s.input.rst = false) (hs : s.st ≠ .idle) :
    step s = .next (s.beginCycle.endCycle s.beginCycle.blockCycle) := by
  simp [step_eq, hr, hs]

/-- The outputs recorded by a step are those of the state held during the cycle (R121). -/
theorem step_out {s t : State} (h : step s = .next t) : t.env.out = s.beginCycle.outputs := by
  obtain ⟨u, rfl, -⟩ := step_edge h
  rfl

/-! ### The host access of an idle block -/

/-- A cycle without a host write leaves an idle block alone (R124). -/
theorem State.hostCycle_noWrite {s : State} (h : s.bus.we = false) : s.hostCycle = s := by
  simp [State.hostCycle, h]

/-- A host write to an idle block goes to `TX_BUF` or to the registers (R39). -/
theorem State.hostCycle_write {s : State} (hs : s.st = .idle) (hw : s.bus.we = true) :
    s.hostCycle =
      if txAddr s.bus.addr.toNat then s.writeByte s.bus.addr.toNat s.bus.wdata
      else s.regWrite s.bus.addr.toNat s.bus.wdata := by
  simp [State.hostCycle, State.hostWrite, hw, s.not_busy_iff.2 hs]

theorem State.regWrite_mem (s : State) (n : Nat) (v : Byte) : (s.regWrite n v).mem = s.mem := by
  unfold State.regWrite; split <;> rfl

/-- The one memory cell a host access can write is a `TX_BUF` byte (R29, R39). -/
theorem State.hostCycle_mem {s : State} (hs : s.st = .idle) :
    s.hostCycle.mem = s.mem ∨
      s.bus.we = true ∧ txAddr s.bus.addr.toNat = true ∧
        s.hostCycle.mem = s.mem.store s.bus.addr.toNat s.bus.wdata := by
  cases hw : s.bus.we
  · exact .inl (by rw [State.hostCycle_noWrite hw])
  · rw [State.hostCycle_write hs hw]
    cases ha : txAddr s.bus.addr.toNat
    · exact .inl (State.regWrite_mem ..)
    · exact .inr ⟨rfl, rfl, rfl⟩

/-- A host access never touches `STATUS`, the channel or the receive side (R34, R39). -/
theorem State.hostCycle_frame (s : State) :
    s.hostCycle.status = s.status ∧ s.hostCycle.chan = s.chan ∧ s.hostCycle.dir = s.dir ∧
      s.hostCycle.pos = s.pos ∧ s.hostCycle.rxPayloadOff = s.rxPayloadOff := by
  rcases s.hostCycle_cases with h | ⟨_, _, _, _, _, _, h, -⟩
  all_goals rw [h]; exact ⟨rfl, rfl, rfl, rfl, rfl⟩

/-! ### Memory -/

/-- `m'` comes from `m` by writes below `RX_FRAME`, which keep the canonical form. -/
def Memory.WrittenBelowRx (m m' : Memory) : Prop :=
  (m.wf = true → m'.wf = true) ∧ ∀ a, rxBase ≤ a → m'.get? a = m.get? a

theorem Memory.WrittenBelowRx.refl (m : Memory) : m.WrittenBelowRx m := ⟨id, fun _ _ => rfl⟩

theorem Memory.WrittenBelowRx.storeAll {m m' : Memory} (h : m.WrittenBelowRx m') {i : Nat} {bs : List Byte}
    (hi : i + bs.length ≤ txBufSize) : m.WrittenBelowRx (m'.storeAll (txBase + i) bs) := by
  obtain ⟨hwf, hrx⟩ := h
  refine ⟨fun hm => Memory.storeAll_wf _ _ (hwf hm), fun a ha => ?_⟩
  simp only [txBase, txBufSize, rxBase] at hi ha ⊢
  rw [Memory.get?_storeAll_outside _ _ _ (by omega), hrx a ha]

/-- `buildEnd` touches no memory (R69). -/
@[simp] theorem State.buildEnd_mem (s : State) : s.buildEnd.mem = s.mem := by
  rcases s.buildEnd_cases with ⟨-, h⟩ | ⟨-, h⟩ <;> simp [h]

/-- A stamp behind the check of R72 stays inside `TX_BUF` (R82). -/
theorem State.stampTx_writtenBelowRx (s : State) (c : Word) (h : 2 ≤ s.txCount) :
    s.mem.WrittenBelowRx (s.stampTx s.txCount c).mem :=
  (Memory.WrittenBelowRx.refl _).storeAll (by
    have := s.txCount_lt
    simp only [crcTail_length, txBufSize]
    omega)

/-- A request of eight bytes stays inside `TX_BUF` (R88, R89). -/
theorem State.writeTx_header_writtenBelowRx (s : State) (u fc : Byte) (a v : Word) :
    s.mem.WrittenBelowRx (s.writeTx 0 (stamped (reqHeader u fc a v))).mem :=
  (Memory.WrittenBelowRx.refl _).storeAll (by simp [txBufSize])

/-- The header and the CRC of an admitted write-multiple request stay inside `TX_BUF` (R90). -/
theorem State.multiWritten_writtenBelowRx (s : State) (c : Word) (h : s.val.toNat ≤ maxCount) :
    s.mem.WrittenBelowRx (s.multiWritten c).mem :=
  ((Memory.WrittenBelowRx.refl _).storeAll (by simp [txBufSize])).storeAll (by
    simp only [maxCount] at h
    simp only [crcTail_length, txBufSize]
    omega)

/-- The action of a phase writes `TX_BUF` at most (R29, R30). -/
theorem State.action_mem (s : State) : s.mem.WrittenBelowRx s.action.mem := by
  rw [State.action]
  cases s.phase with
  | none => exact .refl _
  | crcGen =>
    by_cases h : 2 ≤ s.txCount
    · rw [State.actCrcGen_ok h]; exact s.stampTx_writtenBelowRx _ h
    · rw [State.actCrcGen_short (Nat.not_le.1 h)]; exact .refl _
  | crcChk =>
    by_cases h : 2 ≤ s.txCount
    · rw [State.actCrcCheck_ok h]; exact .refl _
    · rw [State.actCrcCheck_short (Nat.not_le.1 h)]; exact .refl _
  | bRead => rw [State.actBuildRead, State.buildEnd_mem]; exact s.writeTx_header_writtenBelowRx ..
  | bWSingle => rw [State.actBuildWriteSingle, State.buildEnd_mem]; exact s.writeTx_header_writtenBelowRx ..
  | bWMulti =>
    by_cases h : maxCount < s.val.toNat
    · rw [State.actBuildWriteMulti_refused h]; exact .refl _
    · obtain ⟨m, c, he, rfl, -⟩ := s.actBuildWriteMulti_ok (Nat.not_lt.1 h)
      rw [he, State.buildEnd_mem]; exact s.multiWritten_writtenBelowRx c (Nat.not_lt.1 h)
  | xStart =>
    by_cases h : 2 ≤ s.txCount
    · rw [State.actXStart_ok h]; exact s.stampTx_writtenBelowRx _ h
    · rw [State.actXStart_short (Nat.not_le.1 h)]; exact .refl _
  | flush => exact .refl _
  | badOp => exact .refl _

/-- Who writes memory in a cycle of the block: a STAGE cycle below `RX_FRAME`, an RX cycle at `pos` (R29, R30, R106). -/
theorem State.blockCycle_mem (s : State) :
    s.blockCycle.mem = s.mem ∨
    s.st = .stage ∧ s.mem.WrittenBelowRx s.blockCycle.mem ∨
    s.st = .rx ∧ ∃ b, s.blockCycle.mem = s.mem.store (rxBase + s.pos.toNat) b := by
  cases hs : s.st with
  | idle => exact .inl (by rw [State.blockCycle_idle hs])
  | stage =>
    refine .inr (.inl ⟨rfl, ?_⟩)
    rw [State.blockCycle_stage hs, State.stageCycle]
    split
    · exact .refl _
    · exact s.action_mem
  | tx =>
    rw [State.blockCycle_tx hs, State.txCycle]
    rcases s.sendCycle_cases s.txFrame (s.txByte s.txi.toNat) with ⟨-, h⟩ | ⟨-, -, h⟩ | ⟨-, -, h⟩ <;>
      exact .inl (by simp [h])
  | drain =>
    rw [State.blockCycle_drain hs]
    rcases s.drainCycle_cases with ⟨-, h⟩ | ⟨-, h⟩ <;> exact .inl (by simp [h])
  | rx =>
    rw [State.blockCycle_rx hs]
    rcases s.rxCycle_cases with ⟨_, _, _, _, h⟩ | ⟨b, _, _, _, _, h⟩ | ⟨b, _, _, _, _, h⟩ | ⟨_, _, h⟩ | ⟨_, _, h⟩ <;>
      rw [h]
    · exact .inl rfl
    · exact .inr (.inr ⟨rfl, b, rfl⟩)
    · exact .inr (.inr ⟨rfl, b, rfl⟩)
    · exact .inl rfl
    · exact .inl rfl
  | check =>
    rw [State.blockCycle_check hs, State.checkCycle, State.countCheck]
    split
    · exact .inl rfl
    · rcases s.checkAction_cases with ⟨_, h⟩ | ⟨_, _, h⟩ | ⟨_, _, h⟩ <;> exact .inl (by simp [h, State.judge_eq])

/-- A host access keeps the canonical form of memory. -/
theorem State.hostCycle_memInv {s : State} (hs : s.st = .idle) (h : s.memInv) : s.hostCycle.memInv := by
  unfold State.memInv at h ⊢
  rcases State.hostCycle_mem hs with hm | ⟨-, -, hm⟩ <;> rw [hm]
  · exact h
  · exact Memory.store_wf _ _ h

/-- A cycle of the block keeps the canonical form of memory. -/
theorem State.blockCycle_memInv {s : State} (h : s.memInv) : s.blockCycle.memInv := by
  unfold State.memInv at h ⊢
  rcases s.blockCycle_mem with hm | ⟨-, hwf, -⟩ | ⟨-, b, hm⟩
  · rwa [hm]
  · exact hwf h
  · rw [hm]; exact Memory.store_wf _ _ h

/-- Settles O57: each of the three edges of a step keeps the canonical form. -/
theorem memoryStaysCanonical : Obligations.MemoryStaysCanonical := by
  intro s t hi h
  obtain ⟨u, rfl, ⟨-, rfl⟩ | ⟨-, hs, rfl⟩ | ⟨-, -, rfl⟩⟩ := step_edge h
  · exact State.reset_mem_wf
  · exact State.hostCycle_memInv (s := s.beginCycle) hs hi
  · exact State.blockCycle_memInv (s := s.beginCycle) hi

/-! ### Who writes the buffers -/

/-- Recording the outputs at the end of a cycle changes no buffer byte. -/
@[simp] theorem State.endCycle_byteAt (held u : State) (a : Nat) : (held.endCycle u).byteAt a = u.byteAt a := rfl

/-- A cycle of the block counts no reset. -/
theorem State.blockCycle_resets (s : State) : s.blockCycle.env.resets = s.env.resets := by
  obtain ⟨-, -, -, -, -, -, henv, -⟩ := s.blockCycle_frame
  rw [henv]

/-- A byte that a cycle of the block changes is in `TX_BUF` in STAGE, or `RX_FRAME[pos]` in RX (R29, R30, R106). -/
theorem State.blockCycle_byteAt {s : State} {a : Nat} (h : s.blockCycle.byteAt a ≠ s.byteAt a) :
    s.st = .stage ∧ a < rxBase ∨ s.st = .rx ∧ a = rxBase + s.pos.toNat := by
  by_contra hno
  refine h (State.byteAt_of_get?_eq ?_ s.blockCycle_resets)
  rcases s.blockCycle_mem with hm | ⟨hs, -, hrx⟩ | ⟨hs, b, hm⟩
  · rw [hm]
  · exact hrx a (Nat.not_lt.1 fun hlt => hno (.inl ⟨hs, hlt⟩))
  · rw [hm]; exact Memory.get?_store_other _ _ fun he => hno (.inr ⟨hs, he⟩)

/-- A byte that a host access changes is in `TX_BUF`, and the host wrote (R29, R39). -/
theorem State.hostCycle_byteAt {s : State} (hs : s.st = .idle) {a : Nat} (h : s.hostCycle.byteAt a ≠ s.byteAt a) :
    s.bus.we = true ∧ a < rxBase := by
  have hr : s.hostCycle.env.resets = s.env.resets := by rw [State.hostCycle_env]
  rcases State.hostCycle_mem hs with hm | ⟨hw, hx, hm⟩
  · exact absurd (State.byteAt_congr hm hr a) h
  · refine ⟨hw, ?_⟩
    by_contra hlt
    rw [txAddr_iff] at hx
    simp only [rxBase] at hlt
    refine h (State.byteAt_of_get?_eq ?_ hr)
    rw [hm, Memory.get?_store_other _ _ (by omega)]

/-- Settles O53: a changed byte shows which edge ran and where it wrote. -/
theorem bufferWriters : Obligations.BufferWriters := by
  intro s t hr h
  obtain ⟨u, rfl, ⟨hr', -⟩ | ⟨-, hs, rfl⟩ | ⟨-, -, rfl⟩⟩ := step_edge h
  · rw [hr] at hr'; cases hr'
  · refine ⟨fun i _ hb => ?_, fun i _ hb => .inr ⟨hs, ?_⟩⟩
    · obtain ⟨-, hlt⟩ := State.hostCycle_byteAt (s := s.beginCycle) hs hb
      omega
    · exact (State.hostCycle_byteAt (s := s.beginCycle) hs hb).1
  · refine ⟨fun i _ hb => ?_, fun i hi hb => ?_⟩
    · rcases State.blockCycle_byteAt (s := s.beginCycle) hb with ⟨-, hlt⟩ | ⟨hs, he⟩
      · omega
      · exact ⟨hs, Nat.add_left_cancel he⟩
    · rcases State.blockCycle_byteAt (s := s.beginCycle) hb with ⟨hs, -⟩ | ⟨-, he⟩
      · exact .inl hs
      · simp only [txBase, rxBase] at he
        omega

/-- Settles O52: the frame of a cycle of the block, and an idle block without a host write. -/
theorem operandRegistersAreTheHosts : Obligations.OperandRegistersAreTheHosts := by
  intro s t hr h hq
  obtain ⟨u, rfl, ⟨hr', -⟩ | ⟨-, hs, rfl⟩ | ⟨-, -, rfl⟩⟩ := step_edge h
  · rw [hr] at hr'; cases hr'
  · have hw : s.beginCycle.bus.we = false := hq.resolve_left (not_not_intro hs)
    rw [State.hostCycle_noWrite hw]
    exact ⟨rfl, rfl, rfl, rfl, .inl rfl⟩
  · obtain ⟨-, -, hu, ha, hv, hb, -, hl⟩ := s.beginCycle.blockCycle_frame
    exact ⟨hu, ha, hv, hb, hl⟩

end Sys2Proof.Machine
end

section
/-! SUPPORT. The machine's invariant `State.Inv`: each of its parts over the edges of a step. -/

namespace Sys2Proof.Machine

variable {s u : State}

/-! ### `STATUS` -/

/-- A cycle of the block keeps `STATUS`, or it is a `finish` with a status the block writes (R18, R74). -/
theorem BlockEdge.status (h : BlockEdge s u) :
    u.status = s.status ∨
      u.status ∈ writtenStatuses ∧ u.st = .idle ∧ u.phase = .none ∧ u.pend = .none ∧ u.lat = 0 := by
  cases h with
  | finish t r _ _ _ _ hr => exact .inr ⟨hr, rfl, rfl, rfl, rfl⟩
  | next t _ _ ht => exact .inl (by rw [ht])
  | xstart t _ _ _ ht => exact .inl (by rw [ht]; rfl)
  | _ => exact .inl rfl

theorem BlockEdge.statusInv (h : BlockEdge s u) (hi : s.statusInv) : u.statusInv := by
  rcases h.status with he | ⟨hm, -⟩
  · unfold State.statusInv; rwa [he]
  · exact hm

theorem State.hostCycle_status (s : State) : s.hostCycle.status = s.status := s.hostCycle_frame.1

/-- Settles O11: only `finish` writes `STATUS`. -/
theorem statusIsWrittenByFinishOnly : Obligations.StatusIsWrittenByFinishOnly := by
  intro s t hr h hne
  obtain ⟨u, rfl, ⟨hr', -⟩ | ⟨-, -, rfl⟩ | ⟨-, hs, rfl⟩⟩ := step_edge h
  · rw [hr] at hr'; cases hr'
  · exact absurd s.beginCycle.hostCycle_status hne
  · rcases s.beginCycle.blockCycle_edge.status with he | ⟨-, hend⟩
    · exact absurd he hne
    · exact ⟨hs, hend⟩

/-- Settles O60: reset, a host access and a cycle of the block each leave a legal `STATUS`. -/
theorem statusStaysLegal : Obligations.StatusStaysLegal := by
  intro s t hi h
  obtain ⟨u, rfl, ⟨-, rfl⟩ | ⟨-, -, rfl⟩ | ⟨-, -, rfl⟩⟩ := step_edge h
  · show State.reset.status ∈ writtenStatuses
    decide
  · show s.beginCycle.hostCycle.status ∈ writtenStatuses
    rwa [State.hostCycle_status]
  · exact s.beginCycle.blockCycle_edge.statusInv hi

/-! ### The parts of the invariant by control state -/

theorem State.phaseInv_stage (h : s.st = .stage) :
    s.phaseInv ↔ s.phase ≠ .none ∧ 1 ≤ s.lat ∧
      (s.pend = .exchange → s.phase = .bRead ∨ s.phase = .bWSingle ∨ s.phase = .bWMulti) := by
  simp [State.phaseInv, h]

theorem State.phaseInv_check (h : s.st = .check) :
    s.phaseInv ↔ s.phase = .xStart ∧ s.pend = .none ∧ 1 ≤ s.lat := by simp [State.phaseInv, h]

/-- Past PH_XSTART an exchange stays in that phase (R69). -/
theorem State.phaseInv_exchange (h : s.st = .tx ∨ s.st = .drain ∨ s.st = .rx) :
    s.phaseInv ↔ s.phase = .xStart ∧ s.pend = .none := by
  rcases h with h | h | h <;> simp [State.phaseInv, h]

/-- The transmit index matters in TX and DRAIN only (R94). -/
theorem State.txInv_other (h : s.st ≠ .tx) (h' : s.st ≠ .drain) : s.txInv :=
  ⟨fun e => absurd e h, fun e => absurd e h'⟩

theorem State.rxInv_send (h : s.st = .tx ∨ s.st = .drain) :
    s.rxInv ↔ s.pos.toNat ≤ rxBufSize ∧ s.pos = 0#9 ∧ s.tmo = false ∧ s.responseInv := by
  rcases h with h | h <;> simp [State.rxInv, h]

theorem State.rxInv_rx (h : s.st = .rx) :
    s.rxInv ↔ s.pos.toNat ≤ rxBufSize ∧ s.pos.toNat < s.exp.toNat ∧ s.tmo = false ∧ s.wctr ≤ s.timeout ∧
      s.responseInv := by simp [State.rxInv, h]

theorem State.rxInv_check (h : s.st = .check) :
    s.rxInv ↔ s.pos.toNat ≤ rxBufSize ∧ (if s.tmo then s.pos.toNat < s.exp.toNat else s.pos = s.exp) ∧
      s.responseInv := by simp [State.rxInv, h]

theorem State.rxInv_other (h : s.st = .idle ∨ s.st = .stage) : s.rxInv ↔ s.pos.toNat ≤ rxBufSize := by
  rcases h with h | h <;> simp [State.rxInv, h]

/-! ### The control state, the phase and the line direction -/

/-- `DIR` follows TX and DRAIN through every cycle of the block (R96). -/
theorem BlockEdge.dirInv (h : BlockEdge s u) (hi : s.dirInv) : u.dirInv := by
  unfold State.dirInv at *
  cases h with
  | same => exact hi
  | count => exact hi
  | finish t r hs hd => rcases hs with hs | hs <;> simp_all
  | next t hs hp ht => rw [ht]; exact hi
  | xstart t hs hp hl ht => rw [ht]; simp
  | tx1 b hs => simp_all
  | tx2 b hs => exact hi
  | turn hs => simp
  | discard b r hs => exact hi
  | accept b r hs => exact hi
  | last b r hs => simp_all
  | timeout hs => simp_all
  | tick hs => exact hi

/-- The phase bookkeeping holds through every cycle of the block (R69, R70, R74). -/
theorem BlockEdge.phaseInv (h : BlockEdge s u) (hi : s.phaseInv) : u.phaseInv := by
  cases h with
  | same => exact hi
  | count hs hl =>
    rcases hs with hs | hs
    · obtain ⟨hne, -, hpend⟩ := (State.phaseInv_stage hs).1 hi
      exact (State.phaseInv_stage (by exact hs)).2 ⟨hne, Nat.le_sub_one_of_lt hl, hpend⟩
    · obtain ⟨hph, hpd, -⟩ := (State.phaseInv_check hs).1 hi
      exact (State.phaseInv_check (by exact hs)).2 ⟨hph, hpd, Nat.le_sub_one_of_lt hl⟩
  | finish => exact ⟨rfl, rfl, rfl⟩
  | next t hs hp ht =>
    have hu : t.st = .stage := by rw [ht]; exact hs
    exact (State.phaseInv_stage (by exact hu)).2 ⟨by simp, s.one_le_drawLat, by simp⟩
  | xstart t hs hp hl ht =>
    obtain ⟨-, -, hpend⟩ := (State.phaseInv_stage hs).1 hi
    have hpd : s.pend = .none := by
      cases h : s.pend
      · rfl
      · simpa [hp] using hpend h
    rw [ht]
    exact ⟨hp, hpd⟩
  | tx1 b hs => exact (State.phaseInv_exchange (.inl hs)).1 hi
  | tx2 b hs => exact (State.phaseInv_exchange (.inl (by exact hs))).2 ((State.phaseInv_exchange (.inl hs)).1 hi)
  | turn hs => exact (State.phaseInv_exchange (.inr (.inl hs))).1 hi
  | discard b r hs => exact hi
  | accept b r hs => exact hi
  | last b r hs =>
    obtain ⟨hph, hpd⟩ := (State.phaseInv_exchange (.inr (.inr hs))).1 hi
    exact ⟨hph, hpd, State.one_le_drawLat _⟩
  | timeout hs =>
    obtain ⟨hph, hpd⟩ := (State.phaseInv_exchange (.inr (.inr hs))).1 hi
    exact ⟨hph, hpd, State.one_le_drawLat _⟩
  | tick hs => exact hi

/-- The transmit index stays inside the frame (R94). -/
theorem BlockEdge.txInv (h : BlockEdge s u) (hi : s.txInv) : u.txInv := by
  cases h with
  | same => exact hi
  | count => exact hi
  | finish => exact State.txInv_other (by simp) (by simp)
  | next t hs hp ht =>
    have hu : t.st = .stage := by rw [ht]; exact hs
    exact State.txInv_other (by simp [hu]) (by simp [hu])
  | xstart t hs hp hl ht =>
    rw [ht]
    exact ⟨fun _ => ⟨hl, Nat.lt_of_lt_of_le Nat.zero_lt_two hl⟩, by simp⟩
  | tx1 b hs he => exact ⟨by simp, fun _ => ⟨(hi.1 hs).1, he⟩⟩
  | tx2 b hs hne =>
    obtain ⟨hl, hlt⟩ := hi.1 hs
    have hsucc : (s.txi + 1).toNat < s.txCount := by
      have := s.txCount_lt
      bv_omega
    exact ⟨fun _ => ⟨hl, hsucc⟩, fun hd => absurd (hs.symm.trans hd) (by simp)⟩
  | turn hs => exact State.txInv_other (by simp) (by simp)
  | discard b r hs => exact hi
  | accept b r hs => exact hi
  | last b r hs => exact State.txInv_other (by simp) (by simp)
  | timeout hs => exact State.txInv_other (by simp) (by simp)
  | tick hs => exact hi

/-- The payload window starts at 0, 2 or 3 (R16, R31). -/
theorem BlockEdge.windowInv (h : BlockEdge s u) (hi : s.windowInv) : u.windowInv := by
  unfold State.windowInv at *
  cases h with
  | finish t r _ _ ho =>
    rcases ho with ho | ho
    · simpa [ho] using hi
    · exact ho
  | next t _ _ ht => rw [ht]; exact hi
  | xstart t _ _ _ ht => rw [ht]; exact .inl rfl
  | _ => exact hi

/-! ### The response being received -/

/-- Every function code selects a class (R63, R107). -/
theorem classOf_ne_none (fc : Byte) : classOf fc ≠ .none := by
  unfold classOf
  repeat' split
  all_goals simp

/-- The expected length is from FLOOR to the size of `RX_FRAME` (R109, R138). -/
theorem State.expectedLength_bounds (s : State) : floorLen ≤ s.expectedLength ∧ s.expectedLength ≤ rxBufSize := by
  have hb : (s.rxByte 2).toNat < 256 := (s.rxByte 2).isLt
  rw [State.expectedLength]
  cases s.cls <;> simp only [floorLen, wackLen, rxBufSize]
  case read => split <;> omega
  all_goals decide

/-- The position counts on: no wrap inside the buffer (R138). -/
theorem State.pos_succ_toNat {s : State} (h : s.pos.toNat < rxBufSize) : (s.pos + 1).toNat = s.pos.toNat + 1 := by
  simp only [rxBufSize] at h
  bv_omega

theorem State.storeByte_rxByte_other (s : State) (b : Byte) {i : Nat} (h : i ≠ s.pos.toNat) :
    (s.storeByte b).rxByte i = s.rxByte i :=
  s.storeByte_byteAt_other b (by omega)

/-- The function code, accepted at position 1, sets the class and with it the expected length (R107, R109). -/
theorem State.storeByte_expectedLength_fc (hi : s.responseInv) (h1 : s.pos = 1#9) (b : Byte) :
    (s.storeByte b).exp.toNat = (s.storeByte b).expectedLength := by
  obtain ⟨hexp, hlow, -, -⟩ := hi
  obtain ⟨hcls, -⟩ := hlow (by simp [h1])
  have hfl : s.exp.toNat = floorLen := by simpa [State.expectedLength, hcls] using hexp
  have he : (s.storeByte b).exp = expOf s.exp b := if_pos h1
  have hc : (s.storeByte b).cls = classOf b := if_pos h1
  have hpos : (s.storeByte b).pos.toNat = 2 := by rw [State.storeByte_pos, h1]; rfl
  rw [he, State.expectedLength, hc, hpos, expOf]
  cases hk : classOf b with
  | none => exact absurd hk (classOf_ne_none b)
  | read => exact hfl
  | wack => rfl
  | err => rfl

/-- The byte count, accepted at position 2 of a read response, sets the expected length; no other byte behind the
function code or before it changes it (R108, R109). -/
theorem State.storeByte_expectedLength_data (hi : s.responseInv) (hp : s.pos.toNat < rxBufSize) (h1 : s.pos ≠ 1#9)
    (b : Byte) : (s.storeByte b).exp.toNat = (s.storeByte b).expectedLength := by
  obtain ⟨hexp, hlow, -, -⟩ := hi
  have hpos : (s.storeByte b).pos.toNat = s.pos.toNat + 1 := State.pos_succ_toNat hp
  have hc : (s.storeByte b).cls = s.cls := if_neg h1
  have he : (s.storeByte b).exp =
      if s.pos = 2#9 ∧ s.cls = .read then b.setWidth 9 + BitVec.ofNat 9 floorLen else s.exp := if_neg h1
  rw [he, State.expectedLength, hc, hpos]
  rw [State.expectedLength] at hexp
  cases hk : s.cls with
  | none => simpa [hk] using hexp
  | wack => simpa [hk] using hexp
  | err => simpa [hk] using hexp
  | read =>
    have hge : 2 ≤ s.pos.toNat := by
      by_contra hlt
      obtain ⟨hnone, -⟩ := hlow (by omega)
      simp [hnone] at hk
    by_cases h2 : s.pos = 2#9
    · have hb : (s.storeByte b).rxByte 2 = b := by simpa [h2] using s.storeByte_rxByte b (by simp [h2])
      have hsum : (b.setWidth 9 + BitVec.ofNat 9 floorLen).toNat = b.toNat + floorLen := by
        simp only [floorLen]
        bv_omega
      simpa [h2, hb] using hsum
    · have hne : s.pos.toNat ≠ 2 := fun h => h2 (BitVec.eq_of_toNat_eq h)
      rw [hk] at hexp
      rw [s.storeByte_rxByte_other b (Ne.symm hne)]
      simp only [h2, false_and, if_false]
      rw [if_neg (by omega)] at hexp ⊢
      exact hexp

/-- An accepted byte leaves the expected length that class and bytes determine (R107, R108, R109). -/
theorem State.storeByte_expectedLength (hi : s.responseInv) (hp : s.pos.toNat < rxBufSize) (b : Byte) :
    (s.storeByte b).exp.toNat = (s.storeByte b).expectedLength := by
  by_cases h1 : s.pos = 1#9
  · exact State.storeByte_expectedLength_fc hi h1 b
  · exact State.storeByte_expectedLength_data hi hp h1 b

/-- An accepted byte keeps what is known of the response (R105 to R109). -/
theorem State.storeByte_responseInv (hi : s.responseInv) (hp : s.pos.toNat < rxBufSize) {b : Byte}
    (hd : s.discards b = false) : (s.storeByte b).responseInv := by
  obtain ⟨-, hlow, hfirst, hhigh⟩ := id hi
  have hpos : (s.storeByte b).pos.toNat = s.pos.toNat + 1 := State.pos_succ_toNat hp
  have hread := s.storeByte_rxByte b hp
  refine ⟨State.storeByte_expectedLength hi hp b, fun h => ?_, fun _ => ?_, fun h => ?_⟩
  · have h0 : s.pos = 0#9 := BitVec.eq_of_toNat_eq (by simp; omega)
    simpa [State.clsAfter, State.rxFcAfter, h0] using hlow (by simp [h0])
  · by_cases h0 : s.pos = 0#9
    · have hb : b = s.unitId := by simpa [State.discards, h0] using hd
      simpa [h0, hb] using hread
    · have h0' : s.pos.toNat ≠ 0 := fun h => h0 (BitVec.eq_of_toNat_eq h)
      rw [s.storeByte_rxByte_other b (Ne.symm h0'), State.storeByte_unitId]
      exact hfirst (by omega)
  · by_cases h1 : s.pos = 1#9
    · have hb : (s.storeByte b).rxByte 1 = b := by simpa [h1] using hread
      simp [hb, State.clsAfter, State.rxFcAfter, h1]
    · have h1' : s.pos.toNat ≠ 1 := fun h => h1 (BitVec.eq_of_toNat_eq h)
      rw [s.storeByte_rxByte_other b (Ne.symm h1')]
      simpa [State.clsAfter, State.rxFcAfter, h1] using hhigh (by omega)

/-- The position reaches the new expected length at most (R106, R109). -/
theorem State.storeByte_pos_le (hi : s.responseInv) (hlt : s.pos.toNat < s.exp.toNat) {b : Byte}
    (hd : s.discards b = false) :
    (s.storeByte b).pos.toNat ≤ (s.storeByte b).exp.toNat := by
  obtain ⟨hexp, -⟩ := id hi
  have hp : s.pos.toNat < rxBufSize := lt_of_lt_of_le (hexp ▸ hlt) s.expectedLength_bounds.2
  have hpos : (s.storeByte b).pos.toNat = s.pos.toNat + 1 := State.pos_succ_toNat hp
  obtain ⟨hlen, -⟩ := State.storeByte_responseInv hi hp hd
  have hge := (s.storeByte b).expectedLength_bounds.1
  by_cases h3 : s.pos.toNat ≤ 2
  · simp only [floorLen] at hge
    omega
  · have hsame : (s.storeByte b).exp = s.exp := by
      have h1 : s.pos ≠ 1#9 := by rintro h; simp [h] at h3
      have h2 : s.pos ≠ 2#9 := by rintro h; simp [h] at h3
      simp [State.expAfter, h1, h2]
    rw [hsame]
    omega

/-- What a byte taken from the FIFO and stored leaves of the receive loop's bounds (R106, R109, R138). -/
theorem State.popFifo_storeByte (hlt : s.pos.toNat < s.exp.toNat) (hr : s.responseInv) {b : Byte}
    (hd : s.discards b = false) :
    (s.popFifo.storeByte b).responseInv ∧
      (s.popFifo.storeByte b).pos.toNat ≤ (s.popFifo.storeByte b).exp.toNat ∧
      (s.popFifo.storeByte b).pos.toNat ≤ rxBufSize := by
  obtain ⟨hexp, -⟩ := id hr
  have hp : s.pos.toNat < rxBufSize := lt_of_lt_of_le (hexp ▸ hlt) s.expectedLength_bounds.2
  have hpos : (s.popFifo.storeByte b).pos.toNat = s.pos.toNat + 1 := State.pos_succ_toNat hp
  exact ⟨State.storeByte_responseInv (s := s.popFifo) hr hp hd, State.storeByte_pos_le (s := s.popFifo) hr hlt hd,
    by omega⟩

/-- The receive loop's bounds hold through every cycle of the block (R102, R106, R109, R138). -/
theorem BlockEdge.rxInv (h : BlockEdge s u) (hi : s.rxInv) : u.rxInv := by
  cases h with
  | same => exact hi
  | count => exact hi
  | finish t r hs hd ho hp =>
    rw [State.rxInv_other (.inl rfl), State.finish_pos, hp]
    exact hi.1
  | next t hs hp ht =>
    have hst : t.st = .stage := by rw [ht]; exact hs
    have hpos : t.pos = s.pos := by rw [ht]
    exact (State.rxInv_other (.inr hst)).2 (hpos ▸ hi.1)
  | xstart t hs hp hl ht =>
    rw [ht]
    exact (State.rxInv_send (.inl rfl)).2
      ⟨Nat.zero_le _, rfl, rfl, rfl, fun _ => ⟨rfl, rfl⟩, by simp, by simp⟩
  | tx1 b hs => exact (State.rxInv_send (.inr rfl)).2 ((State.rxInv_send (.inl hs)).1 hi)
  | tx2 b hs => exact (State.rxInv_send (.inl (by exact hs))).2 ((State.rxInv_send (.inl hs)).1 hi)
  | turn hs =>
    obtain ⟨hle, hp, ht, hr⟩ := (State.rxInv_send (.inr hs)).1 hi
    obtain ⟨hexp, -⟩ := id hr
    have hlt : s.pos.toNat < s.exp.toNat := by
      rw [hexp, hp]
      exact lt_of_lt_of_le (by decide) s.expectedLength_bounds.1
    exact (State.rxInv_rx rfl).2 ⟨hle, hlt, ht, Nat.zero_le _, hr⟩
  | discard b r hs =>
    obtain ⟨hle, hlt, ht, -, hr⟩ := (State.rxInv_rx hs).1 hi
    exact (State.rxInv_rx (by exact hs)).2 ⟨hle, hlt, ht, Nat.zero_le _, hr⟩
  | accept b r hs hf hd hne =>
    obtain ⟨-, hlt, ht, -, hr⟩ := (State.rxInv_rx hs).1 hi
    obtain ⟨hr', hle', hbuf⟩ := State.popFifo_storeByte hlt hr hd
    exact (State.rxInv_rx (by exact hs)).2
      ⟨hbuf, lt_of_le_of_ne hle' fun h => hne (BitVec.eq_of_toNat_eq h), ht, Nat.zero_le _, hr'⟩
  | last b r hs hf hd he =>
    obtain ⟨-, hlt, ht, -, hr⟩ := (State.rxInv_rx hs).1 hi
    obtain ⟨hr', -, hbuf⟩ := State.popFifo_storeByte hlt hr hd
    refine (State.rxInv_check rfl).2 ⟨hbuf, ?_, hr'⟩
    rw [State.enterCheck_tmo, State.storeByte_tmo, State.popFifo_tmo, ht]
    exact he
  | timeout hs =>
    obtain ⟨hle, hlt, -, -, hr⟩ := (State.rxInv_rx hs).1 hi
    exact (State.rxInv_check rfl).2 ⟨hle, hlt, hr⟩
  | tick hs hne =>
    obtain ⟨hle, hlt, ht, hw, hr⟩ := (State.rxInv_rx hs).1 hi
    exact (State.rxInv_rx (by exact hs)).2 ⟨hle, hlt, ht, Nat.lt_of_le_of_ne hw hne, hr⟩

/-! ### All of it -/

/-- The invariant speaks of nothing that the channel's start of a cycle changes. -/
theorem State.beginCycle_Inv (s : State) : s.beginCycle.Inv ↔ s.Inv := Iff.rfl

/-- The invariant speaks of nothing that the end of a cycle changes. -/
theorem State.endCycle_Inv (held u : State) : (held.endCycle u).Inv ↔ u.Inv := Iff.rfl

/-- A reset leads into the invariant (R146). -/
theorem State.resetEdge_Inv (s : State) : s.resetEdge.Inv :=
  ⟨State.reset_mem_wf, .head _, by simp [State.dirInv, State.reset], ⟨rfl, rfl, rfl⟩,
    by simp [State.txInv, State.reset], ⟨by simp [State.reset], trivial⟩, .inl rfl⟩

/-- A host access of an idle block keeps the invariant: it issues a command (R68), or writes what the invariant of an
idle block does not speak of. -/
theorem State.hostCycle_Inv (hs : s.st = .idle) (hi : s.Inv) : s.hostCycle.Inv := by
  obtain ⟨hm, hstat, hdir, hph, htx, hrx, hw⟩ := hi
  have hmem := State.hostCycle_memInv hs hm
  rcases s.hostCycle_cases with h | ⟨_, _, _, _, _, _, h, -⟩ <;> rw [h] at hmem ⊢
  · obtain ⟨hne, hpend⟩ := firstPhase_ok s.bus.wdata
    refine ⟨hmem, hstat, ?_, ⟨hne, s.one_le_drawLat, hpend⟩, State.txInv_other (by simp [State.issue])
      (by simp [State.issue]), ⟨hrx.1, trivial⟩, hw⟩
    simpa [State.dirInv, State.issue, hs] using hdir
  · exact ⟨hmem, hstat, hdir, hph, State.txInv_other (by simp [hs]) (by simp [hs]),
      (State.rxInv_other (.inl (by exact hs))).2 hrx.1, hw⟩

/-- A cycle of the block keeps the invariant, part by part. -/
theorem State.blockCycle_Inv (hi : s.Inv) : s.blockCycle.Inv := by
  obtain ⟨hm, hstat, hdir, hph, htx, hrx, hw⟩ := hi
  have he := s.blockCycle_edge
  exact ⟨State.blockCycle_memInv hm, he.statusInv hstat, he.dirInv hdir, he.phaseInv hph, he.txInv htx, he.rxInv hrx,
    he.windowInv hw⟩

/-- Settles O56: each of the three edges of a step keeps every part of the invariant. -/
theorem invIsKeptByEveryStep : Obligations.InvIsKeptByEveryStep := by
  intro s t hi h
  obtain ⟨u, rfl, ⟨-, rfl⟩ | ⟨-, hs, rfl⟩ | ⟨-, -, rfl⟩⟩ := step_edge h
  · exact s.beginCycle.resetEdge_Inv
  · exact State.hostCycle_Inv (s := s.beginCycle) hs hi
  · exact State.blockCycle_Inv (s := s.beginCycle) hi

end Sys2Proof.Machine
end

section
/-! SUPPORT. The host port (20_memory.md R34 to R39): what each address reads, what a write to it does, and that a busy
block does not see the host. -/

namespace Sys2Proof.Machine

/-! ### `HostRead` -/

/-- At an address with storage a host read gives the stored byte (R38). -/
theorem State.hostRead_buffer (s : State) {a : BitVec 11} (h : bufferAddr a.toNat = true) :
    s.hostRead a = s.byteAt a.toNat := by
  simp [State.hostRead, h]

/-- Outside the buffers and the payload window a host read is a register read (R38). -/
theorem State.hostRead_outside (s : State) {a : BitVec 11} (hb : bufferAddr a.toNat = false)
    (hp : ¬ (payloadBase ≤ a.toNat ∧ a.toNat < payloadEnd)) : s.hostRead a = s.regRead a.toNat := by
  simp [State.hostRead, hb, hp]

theorem State.hostRead_txBuf (s : State) {i : Nat} (h : i ≤ 254) :
    s.hostRead (BitVec.ofNat 11 (0x100 + i)) = s.txByte i := by
  have ha : (BitVec.ofNat 11 (0x100 + i)).toNat = txBase + i := by simp [txBase]; omega
  rw [State.hostRead_buffer _ (by rw [ha]; exact bufferAddr_tx (Nat.lt_succ_of_le h)), ha]
  rfl

theorem State.hostRead_rxFrame (s : State) {i : Nat} (h : i ≤ 259) :
    s.hostRead (BitVec.ofNat 11 (0x200 + i)) = s.rxByte i := by
  have ha : (BitVec.ofNat 11 (0x200 + i)).toNat = rxBase + i := by simp [rxBase]; omega
  rw [State.hostRead_buffer _ (by rw [ha]; exact bufferAddr_rx (Nat.lt_succ_of_le h)), ha]
  rfl

/-- The payload window is evaluated at the time of the read (R31). -/
theorem State.hostRead_payload (s : State) {i : Nat} (h : i ≤ 254) :
    s.hostRead (BitVec.ofNat 11 (0x400 + i)) = s.rxByte (s.rxPayloadOff.toNat + i) := by
  have ha : (BitVec.ofNat 11 (0x400 + i)).toNat = payloadBase + i := by simp [payloadBase]; omega
  have hb : bufferAddr (payloadBase + i) = false := by
    rw [Bool.eq_false_iff, ne_eq, bufferAddr_iff, payloadBase]
    omega
  have hw : payloadBase ≤ payloadBase + i ∧ payloadBase + i < payloadEnd := by
    simp only [payloadBase, payloadEnd]
    omega
  rw [State.hostRead, ha, hb, if_neg Bool.false_ne_true, if_pos hw, Nat.add_sub_cancel_left]

/-- The reserved addresses (R16). -/
def reservedAddr (a : BitVec 11) : Prop :=
  a = 0x013#11 ∨ 0x018 ≤ a.toNat ∧ a.toNat ≤ 0x0FF ∨ a = 0x1FF#11 ∨ 0x304 ≤ a.toNat ∧ a.toNat ≤ 0x3FF ∨
    0x4FF ≤ a.toNat

/-- A reserved address reads 0x00 (R38). -/
theorem State.hostRead_reserved (s : State) {a : BitVec 11} (h : reservedAddr a) : s.hostRead a = 0x00#8 := by
  by_cases h13 : a = 0x013#11
  · subst h13; rfl
  have h1FF : a = 0x1FF#11 → a.toNat = 0x1FF := by rintro rfl; rfl
  have hn : 0x018 ≤ a.toNat ∧ a.toNat ≤ 0x0FF ∨ a.toNat = 0x1FF ∨ 0x304 ≤ a.toNat ∧ a.toNat ≤ 0x3FF ∨
      0x4FF ≤ a.toNat := (h.resolve_left h13).imp_right (Or.imp_left h1FF)
  have hb : bufferAddr a.toNat = false := by
    rw [Bool.eq_false_iff, ne_eq, bufferAddr_iff]
    omega
  rw [State.hostRead_outside s hb (by simp only [payloadBase, payloadEnd]; omega)]
  exact s.regRead_reserved _ (by omega)

/-- Settles O39: registers, buffers, payload window and reserved addresses. -/
theorem hostReadMap : Obligations.HostReadMap := by
  intro s
  have hpos : (join (s.hostRead 0x00A#11) (s.hostRead 0x00B#11)).toNat = s.pos.toNat := by
    have h : join (s.hostRead 0x00A#11) (s.hostRead 0x00B#11) = s.pos.setWidth 16 := join_hi8_lo8 _
    rw [h, BitVec.toNat_setWidth, Nat.mod_eq_of_lt (by omega)]
  exact ⟨rfl, rfl, rfl, rfl, join_hi8_lo8 _, join_hi8_lo8 _, rfl, rfl, hpos, rfl, rfl, join_hi8_lo8 _, join_hi8_lo8 _,
    rfl, join_byteOf32 _, fun _ h => s.hostRead_txBuf h, fun _ h => s.hostRead_rxFrame h,
    fun _ h => s.hostRead_payload h, fun _ h => s.hostRead_reserved h⟩

/-- The bits of a byte put together as `FLAGS` is (R19). -/
theorem flagByte_bits : ∀ busy dir crc : Bool,
    let b := (if busy then 0x01#8 else 0x00#8) ||| (if dir then 0x02#8 else 0x00#8) |||
      (if crc then 0x04#8 else 0x00#8)
    b.getLsbD 0 = busy ∧ b.getLsbD 1 = dir ∧ b.getLsbD 2 = crc ∧ ∀ k < 8, 3 ≤ k → b.getLsbD k = false := by
  decide

/-- Settles O40: the bits of the flag byte, and none at 8 and above. -/
theorem flagsBits : Obligations.FlagsBits := by
  intro s
  obtain ⟨hbusy, hdir, hcrc, hhigh⟩ := flagByte_bits s.busy s.dir s.crcMatch
  refine ⟨by rw [← s.busy_iff]; exact Bool.eq_iff_iff.1 hbusy, hdir, hcrc, fun k hk => ?_⟩
  by_cases h8 : k < 8
  · exact hhigh k h8 hk
  · exact BitVec.getLsbD_of_ge _ _ (Nat.not_lt.1 h8)

/-! ### `HostWrite` -/

/-- The register addresses that the host may write (R16). -/
def writableReg (n : Nat) : Prop := 3 ≤ n ∧ n ≤ 8 ∨ 0x14 ≤ n ∧ n ≤ 0x17

/-- A writable location is a register or a `TX_BUF` byte (R16, R29). -/
theorem writableLocation_iff (a : BitVec 11) :
    writableLocation a = true ↔ txAddr a.toNat = true ∨ writableReg a.toNat := by
  rw [txAddr_iff, writableReg]
  simp only [writableLocation, Bool.or_eq_true, Bool.and_eq_true, decide_eq_true_eq]
  omega

/-- A register write is to `CMD`, to a writable register, or ignored (R16, R39). -/
theorem State.regWrite_ignored (s : State) {n : Nat} (v : Byte) (h0 : n ≠ 0) (h : ¬ writableReg n) :
    s.regWrite n v = s := by
  unfold writableReg at h
  unfold State.regWrite
  split
  case h_12 => rfl
  all_goals omega

/-- A writable register reads back what was written (R35). -/
theorem State.regRead_regWrite_same (s : State) {n : Nat} (v : Byte) (h : writableReg n) :
    (s.regWrite n v).regRead n = v := by
  obtain rfl | rfl | rfl | rfl | rfl | rfl | rfl | rfl | rfl | rfl : n = 3 ∨ n = 4 ∨ n = 5 ∨ n = 6 ∨ n = 7 ∨ n = 8 ∨
      n = 0x14 ∨ n = 0x15 ∨ n = 0x16 ∨ n = 0x17 := by unfold writableReg at h; omega
  all_goals simp [State.regWrite, State.regRead, byteOf32_setByte32]

/-- A write to a register other than `CMD` leaves the control state, the window and the environment (R39). -/
theorem State.regWrite_frame (s : State) {n : Nat} (v : Byte) (h0 : n ≠ 0) :
    (s.regWrite n v).st = s.st ∧ (s.regWrite n v).rxPayloadOff = s.rxPayloadOff ∧ (s.regWrite n v).env = s.env := by
  unfold State.regWrite
  split
  · exact absurd rfl h0
  all_goals exact ⟨rfl, rfl, rfl⟩

theorem State.regWrite_byteAt (s : State) {n : Nat} (v : Byte) (h0 : n ≠ 0) (a : Nat) :
    (s.regWrite n v).byteAt a = s.byteAt a := by
  obtain ⟨-, -, henv⟩ := s.regWrite_frame v h0
  exact State.byteAt_congr (s.regWrite_mem n v) (by rw [henv]) a

/-- A write to a `TX_BUF` byte of an idle block, in full (R29, R35, R39). -/
theorem State.writeByte_readBack (s : State) {a : BitVec 11} (v : Byte) (h : txAddr a.toNat = true) :
    (s.writeByte a.toNat v).hostRead a = v ∧
      ∀ b, b ≠ a → (s.writeByte a.toNat v).hostRead b = s.hostRead b := by
  have ha := txAddr_iff.1 h
  have hbuf : bufferAddr a.toNat = true := bufferAddr_iff.2 (.inl ha)
  refine ⟨?_, fun b hb => ?_⟩
  · rw [State.hostRead_buffer _ hbuf, State.byteAt_writeByte_same s v hbuf]
  · have hne : b.toNat ≠ a.toNat := fun h => hb (BitVec.eq_of_toNat_eq h)
    refine State.hostRead_congr b (fun n _ hn => ?_) rfl (fun n hn => ?_) (fun _ => rfl)
    · exact s.byteAt_writeByte_other v (by omega)
    · exact s.byteAt_writeByte_other v (by omega)

/-- A write to a writable register of an idle block, in full (R35, R39). -/
theorem State.regWrite_readBack (s : State) {a : BitVec 11} (v : Byte) (h : writableReg a.toNat) :
    (s.regWrite a.toNat v).hostRead a = v ∧
      ∀ b, b ≠ a → (s.regWrite a.toNat v).hostRead b = s.hostRead b := by
  have h0 : 0 < a.toNat := by unfold writableReg at h; omega
  have hlow : a.toNat < 0x100 := by unfold writableReg at h; omega
  obtain ⟨-, hoff, -⟩ := s.regWrite_frame v h0.ne'
  have hbyte := s.regWrite_byteAt v h0.ne'
  refine ⟨?_, fun b hb => ?_⟩
  · rw [State.hostRead_reg _ _ hlow, State.regRead_regWrite_same s v h]
  · have hne : b.toNat ≠ a.toNat := fun h => hb (BitVec.eq_of_toNat_eq h)
    exact State.hostRead_congr b (fun n _ _ => hbyte n) hoff (fun n _ => hbyte n)
      (fun hb => s.regRead_regWrite v _ _ h0 hne hb)

/-- Settles O41: the written location is a `TX_BUF` byte or a register. -/
theorem hostWriteIsReadBack : Obligations.HostWriteIsReadBack := by
  intro s hs hr hw ha
  refine ⟨_, step_idle s hs hr, ?_⟩
  have hwr := State.hostCycle_write (s := s.beginCycle) hs hw
  rcases (writableLocation_iff _).1 ha with htx | hreg
  · rw [State.beginCycle_bus, htx, if_pos rfl] at hwr
    rw [hwr]
    obtain ⟨hsame, hother⟩ := s.beginCycle.writeByte_readBack s.bus.wdata htx
    exact ⟨hs, hsame, hother, fun a hne => s.beginCycle.byteAt_writeByte_other _ hne⟩
  · have h0 : s.bus.addr.toNat ≠ 0 := by unfold writableReg at hreg; omega
    have hntx : txAddr s.bus.addr.toNat ≠ true := by
      rw [ne_eq, txAddr_iff]; unfold writableReg at hreg; omega
    rw [State.beginCycle_bus, if_neg hntx] at hwr
    rw [hwr]
    obtain ⟨hsame, hother⟩ := s.beginCycle.regWrite_readBack s.bus.wdata hreg
    obtain ⟨hst, -⟩ := s.beginCycle.regWrite_frame s.bus.wdata h0
    exact ⟨hst.trans hs, hsame, hother, fun a _ => s.beginCycle.regWrite_byteAt s.bus.wdata h0 a⟩

/-- Settles O42: such an address is no `TX_BUF` byte, and no register that takes a write. -/
theorem readOnlyAndReservedWritesAreIgnored : Obligations.ReadOnlyAndReservedWritesAreIgnored := by
  intro s hs hr hw ha hcmd
  have hnot : ¬ (txAddr s.bus.addr.toNat = true ∨ writableReg s.bus.addr.toNat) := by
    rw [← writableLocation_iff, ha]; exact Bool.false_ne_true
  obtain ⟨hntx, hnreg⟩ := not_or.1 hnot
  have h0 : s.bus.addr.toNat ≠ 0 := fun h => hcmd (BitVec.eq_of_toNat_eq h)
  rw [step_idle s hs hr, State.hostCycle_write (s := s.beginCycle) hs hw, State.beginCycle_bus, if_neg hntx,
    State.regWrite_ignored _ _ h0 hnreg]

/-! ### A busy block does not see the host -/

/-- The same machine under another host program. -/
def State.withHost (s : State) (h : List HostOp) : State := { s with env := { s.env with host := h } }

variable (s : State) (h : List HostOp)

theorem State.buildEnd_withHost : (s.withHost h).buildEnd = s.buildEnd.withHost h := by
  rcases s.buildEnd_cases with ⟨hp, he⟩ | ⟨hp, he⟩ <;> rw [he]
  · exact State.buildEnd_none hp
  · exact State.buildEnd_exchange hp

theorem State.action_withHost : (s.withHost h).action = s.action.withHost h := by
  have hp : (s.withHost h).phase = s.phase := rfl
  rw [State.action, State.action, hp]
  cases s.phase with
  | none => rfl
  | crcGen =>
    simp only [State.actCrcGen, apply_ite (fun t : State => t.withHost h)]
    rfl
  | crcChk =>
    simp only [State.actCrcCheck, apply_ite (fun t : State => t.withHost h)]
    rfl
  | bRead => exact (s.built _ _ _).buildEnd_withHost h
  | bWSingle => exact (s.built _ _ _).buildEnd_withHost h
  | bWMulti =>
    simp only [State.actBuildWriteMulti, apply_ite (fun t : State => t.withHost h), ← State.buildEnd_withHost]
    rfl
  | xStart =>
    simp only [State.actXStart, apply_ite (fun t : State => t.withHost h)]
    rfl
  | flush => rfl
  | badOp => rfl

theorem State.rxCycle_withHost : (s.withHost h).rxCycle = s.rxCycle.withHost h := by
  have hf : (s.withHost h).chan.fifo = s.chan.fifo := rfl
  rw [State.rxCycle, State.rxCycle, hf]
  cases s.chan.fifo <;> simp only [apply_ite (fun t : State => t.withHost h)] <;> rfl

/-- A cycle of the block does not read the host's program (R34). -/
theorem State.blockCycle_withHost : (s.withHost h).blockCycle = s.blockCycle.withHost h := by
  have hst : (s.withHost h).st = s.st := rfl
  rw [State.blockCycle, State.blockCycle, hst]
  cases s.st with
  | idle => rfl
  | stage =>
    simp only [State.stageCycle, apply_ite (fun t : State => t.withHost h), ← State.action_withHost]
    rfl
  | tx =>
    simp only [State.txCycle, State.sendCycle, apply_ite (fun t : State => t.withHost h)]
    rfl
  | drain =>
    simp only [State.drainCycle, apply_ite (fun t : State => t.withHost h)]
    rfl
  | rx => exact s.rxCycle_withHost h
  | check =>
    simp only [State.checkCycle, State.countCheck, State.checkAction, apply_ite (fun t : State => t.withHost h)]
    rfl

/-- Settles O43: the cycle of a busy block commutes with a change of the host program. -/
theorem hostAccessWhileBusyChangesNothing : Obligations.HostAccessWhileBusyChangesNothing := by
  intro s h hs
  have hu := step_eq (s.withHost h)
  have hin : (s.withHost h).input = s.input := rfl
  have hst : (s.withHost h).st ≠ .idle := hs
  have hbeg : (s.withHost h).beginCycle = s.beginCycle.withHost h := rfl
  refine ⟨_, _, step_eq s, hu, ?_⟩
  rw [hin, if_neg hst, if_neg hs, hbeg, State.blockCycle_withHost]
  cases s.input.rst <;> exact ⟨rfl, rfl⟩

end Sys2Proof.Machine
end

section
/-! SUPPORT. The outputs of a cycle and the channel (44_reassembly.md R121, 60_exceptions.md R127): each cycle of the
block changes the channel exactly as its outputs ask. -/

namespace Sys2Proof.Machine

/-! ### When the block flushes -/

/-- A phase's action asserts `rx_flush` in PH_XSTART behind the check of R72, and in PH_FLUSH (R92, R101). -/
def State.actionFlushes (s : State) : Bool := decide (s.phase = .xStart) && s.txLenOk || decide (s.phase = .flush)

theorem State.actionFlushes_iff (s : State) :
    s.actionFlushes = true ↔ s.phase = .xStart ∧ 2 ≤ s.txCount ∨ s.phase = .flush := by
  simp [State.actionFlushes, State.txLenOk_iff]

theorem State.flushing_stage {s : State} (h : s.st = .stage) :
    s.flushing = (decide (s.lat ≤ 1) && s.actionFlushes) := by
  simp [State.flushing, h, State.actionFlushes]

theorem State.flushing_drain {s : State} (h : s.st = .drain) : s.flushing = s.txEmpty := by
  simp [State.flushing, h]

theorem State.flushing_other {s : State} (h : s.st ≠ .stage) (h' : s.st ≠ .drain) : s.flushing = false := by
  unfold State.flushing
  split
  · next hs => exact absurd hs h
  · next hs => exact absurd hs h'
  · rfl

/-- `rx_flush` by control state and phase (R69, R70, R121). -/
theorem State.flushing_iff {s : State} (hi : s.phaseInv) :
    s.flushing = true ↔
      s.st = .stage ∧ s.lat = 1 ∧ s.phase = .xStart ∧ 2 ≤ s.txCount ∨
      s.st = .stage ∧ s.lat = 1 ∧ s.phase = .flush ∨
      s.st = .drain ∧ s.chan.unsent = [] := by
  by_cases hs : s.st = .stage
  · have hl : 1 ≤ s.lat := by
      rw [State.phaseInv, hs] at hi
      exact hi.2.1
    have hlat : s.lat ≤ 1 ↔ s.lat = 1 := ⟨fun h => Nat.le_antisymm h hl, Nat.le_of_eq⟩
    rw [State.flushing_stage hs, Bool.and_eq_true, State.actionFlushes_iff, decide_eq_true_eq, hlat]
    simp [hs, and_or_left]
  · by_cases hd : s.st = .drain
    · simp [State.flushing_drain hd, hd, State.txEmpty]
    · simp [State.flushing_other hs hd, hs, hd]

/-! ### The channel after a cycle of the block -/

/-- The channel as the outputs `rx_flush`, `rx_pop` and `tx_valid` of a cycle ask (R127 duties (a), (d), (e)). -/
def Channel.follow (c : Channel) (flush pop : Bool) (taken : List Byte) : Channel :=
  { c with
    fifo := if flush then [] else if pop then c.fifo.tail else c.fifo
    unsent := c.unsent ++ taken }

@[simp] theorem Channel.follow_nothing (c : Channel) : c.follow false false [] = c := by
  simp [Channel.follow]

@[simp] theorem Channel.follow_flush (c : Channel) : c.follow true false [] = { c with fifo := [] } := by
  simp [Channel.follow]

@[simp] theorem Channel.follow_pop (c : Channel) : c.follow false true [] = { c with fifo := c.fifo.tail } := by
  simp [Channel.follow]

@[simp] theorem Channel.follow_take (c : Channel) (b : Byte) :
    c.follow false false [b] = { c with unsent := c.unsent ++ [b] } := rfl

/-- `buildEnd` does not touch the channel (R69). -/
@[simp] theorem State.buildEnd_chan (s : State) : s.buildEnd.chan = s.chan := by
  rcases s.buildEnd_cases with ⟨-, h⟩ | ⟨-, h⟩ <;> simp [h]

/-- A phase's action flushes the FIFO or leaves the channel alone (R92, R101). -/
theorem State.action_chan (s : State) : s.action.chan = s.chan.follow s.actionFlushes false [] := by
  rw [State.action, State.actionFlushes]
  cases hp : s.phase with
  | none => simp
  | crcGen => simp [State.actCrcGen, apply_ite State.chan]
  | crcChk => simp [State.actCrcCheck, apply_ite State.chan]
  | bRead => simp [State.actBuildRead, State.built]
  | bWSingle => simp [State.actBuildWriteSingle, State.built]
  | bWMulti => simp [State.actBuildWriteMulti, State.built, apply_ite State.chan]
  | xStart => cases hk : s.txLenOk <;> simp [State.actXStart, State.flushFifo, hk]
  | flush => simp [State.actFlush, State.flushFifo]
  | badOp => simp [State.actBadOp]

/-- The block pops the FIFO in this cycle (R121). -/
def State.popping (s : State) : Bool := decide (s.st = .rx) && !s.chan.fifo.isEmpty

theorem State.popping_iff (s : State) : s.popping = true ↔ s.st = .rx ∧ s.chan.fifo ≠ [] := by
  simp [State.popping]

theorem State.popping_other {s : State} (h : s.st ≠ .rx) : s.popping = false := by
  simp [State.popping, h]

/-- The byte the channel takes in this cycle, if it takes one (R121, R127 duty (a)). -/
def State.takenByte (s : State) : List Byte :=
  if s.st = .tx ∧ s.input.txReady = true then [s.txByte s.txi.toNat] else []

theorem State.takenByte_other {s : State} (h : s.st ≠ .tx) : s.takenByte = [] := by
  simp [State.takenByte, h]

/-- A STAGE cycle flushes when its action runs and flushes (R70). -/
theorem State.stageCycle_chan (s : State) :
    s.stageCycle.chan = s.chan.follow (decide (s.lat ≤ 1) && s.actionFlushes) false [] := by
  by_cases hl : s.lat ≤ 1
  · simp [State.stageCycle_act hl, s.action_chan, hl]
  · simp [State.stageCycle_count (Nat.not_le.1 hl), hl]

theorem State.txCycle_chan {s : State} (h : s.st = .tx) :
    s.txCycle.chan = s.chan.follow false false s.takenByte := by
  rw [State.txCycle, State.takenByte]
  rcases s.sendCycle_cases s.txFrame (s.txByte s.txi.toNat) with ⟨hr, he⟩ | ⟨hr, -, he⟩ | ⟨hr, -, he⟩ <;>
    simp [he, hr, h]

theorem State.drainCycle_chan (s : State) : s.drainCycle.chan = s.chan.follow s.txEmpty false [] := by
  rcases s.drainCycle_cases with ⟨he, h⟩ | ⟨he, h⟩ <;> simp [h, he, State.flushFifo]

theorem State.rxCycle_chan {s : State} (h : s.st = .rx) : s.rxCycle.chan = s.chan.follow false s.popping [] := by
  have hpop : s.popping = !s.chan.fifo.isEmpty := by simp [State.popping, h]
  rcases s.rxCycle_cases with
    ⟨b, r, hf, -, he⟩ | ⟨b, r, hf, -, -, he⟩ | ⟨b, r, hf, -, -, he⟩ | ⟨hf, -, he⟩ | ⟨hf, -, he⟩ <;>
    simp [he, hpop, hf]

theorem State.checkCycle_chan (s : State) : s.checkCycle.chan = s.chan := by
  by_cases hl : s.lat ≤ 1
  · rw [State.checkCycle_act hl]
    rcases s.checkAction_cases with ⟨-, h⟩ | ⟨-, -, h⟩ | ⟨-, -, h⟩ <;> simp [h, State.judge_eq]
  · rw [State.checkCycle_count (Nat.not_le.1 hl)]

/-- A cycle of the block changes the channel as its outputs ask (R121, R127). -/
theorem State.blockCycle_chan (s : State) :
    s.blockCycle.chan = s.chan.follow s.flushing s.popping s.takenByte := by
  cases hs : s.st with
  | idle =>
    simp [State.blockCycle_idle, State.flushing_other, State.popping_other, State.takenByte_other, hs]
  | stage =>
    simp [State.blockCycle_stage, State.flushing_stage, State.popping_other, State.takenByte_other,
      State.stageCycle_chan, hs]
  | tx => simp [State.blockCycle_tx, State.flushing_other, State.popping_other, State.txCycle_chan, hs]
  | drain =>
    simp [State.blockCycle_drain, State.flushing_drain, State.popping_other, State.takenByte_other,
      State.drainCycle_chan, hs]
  | rx => simp [State.blockCycle_rx, State.flushing_other, State.takenByte_other, State.rxCycle_chan, hs]
  | check =>
    simp [State.blockCycle_check, State.flushing_other, State.popping_other, State.takenByte_other,
      State.checkCycle_chan, hs]

/-! ### The outputs -/

/-- A cycle never both pops and flushes (R121). -/
theorem State.not_popping_and_flushing (s : State) : ¬ (s.popping = true ∧ s.flushing = true) := by
  rintro ⟨hp, hf⟩
  obtain ⟨hs, -⟩ := (State.popping_iff s).1 hp
  rw [State.flushing_other (by simp [hs]) (by simp [hs])] at hf
  cases hf

/-- The channel outputs of a cycle without reset (R121). -/
theorem State.outputs_noReset {s : State} (hr : s.input.rst = false) :
    s.outputs.txValid = decide (s.st = .tx) ∧ s.outputs.rxPop = s.popping ∧ s.outputs.rxFlush = s.flushing ∧
      s.outputs.dir = s.dir := by
  simp [State.outputs, State.popping, hr]

/-- The channel outputs of a reset cycle are inactive (R145). -/
theorem State.outputs_reset {s : State} (hr : s.input.rst = true) :
    s.outputs.txValid = false ∧ s.outputs.rxPop = false ∧ s.outputs.rxFlush = false := by
  simp [State.outputs, hr]

/-- The byte taken is the byte offered (R121). -/
theorem State.takenByte_eq_outputs {s : State} (hr : s.input.rst = false) :
    s.takenByte = if s.outputs.txValid && s.input.txReady then [s.outputs.txData] else [] := by
  obtain ⟨hv, -⟩ := State.outputs_noReset hr
  by_cases hs : s.st = .tx
  · simp [State.takenByte, State.outputs, hr, hs]
  · simp [hv, State.takenByte_other, hs]

/-- Whatever edge a step takes, the channel follows the outputs of its cycle (R127, R145). -/
theorem step_chan {s t : State} (h : step s = .next t) :
    t.chan = s.beginCycle.chan.follow t.env.out.rxFlush t.env.out.rxPop
      (if t.env.out.txValid && s.input.txReady then [t.env.out.txData] else []) := by
  rw [step_out h]
  obtain ⟨u, rfl, ⟨hr, rfl⟩ | ⟨hr, hs, rfl⟩ | ⟨hr, -, rfl⟩⟩ := step_edge h
  · obtain ⟨hv, hp, hf⟩ := State.outputs_reset (s := s.beginCycle) hr
    simp [hv, hp, hf]
  · obtain ⟨hv, hp, hf, -⟩ := State.outputs_noReset (s := s.beginCycle) hr
    have hs' : s.beginCycle.st = .idle := hs
    obtain ⟨-, hc, -⟩ := s.beginCycle.hostCycle_frame
    simp [hv, hp, hf, hs, hc, State.popping_other, State.flushing_other]
  · obtain ⟨-, hp, hf, -⟩ := State.outputs_noReset (s := s.beginCycle) hr
    rw [hp, hf, ← s.beginCycle_input, ← State.takenByte_eq_outputs (s := s.beginCycle) hr]
    exact s.beginCycle.blockCycle_chan

/-- Settles O51: the outputs are those of the held state, and `step_chan` says what the channel does with them. -/
theorem channelFollowsTheOutputs : Obligations.ChannelFollowsTheOutputs := by
  refine ⟨fun s t hr h => ?_, fun s t h => ?_⟩
  · obtain ⟨hv, hp, hf, hd⟩ := State.outputs_noReset (s := s.beginCycle) hr
    rw [step_out h, hv, hp, hf, hd]
    exact ⟨rfl, rfl, s.beginCycle.popping_iff, State.flushing_iff (s := s.beginCycle), rfl, rfl, fun _ => rfl⟩
  · have hc := step_chan h
    refine ⟨by rw [hc]; rfl, by rw [hc]; rfl, by rw [hc]; rfl, ?_⟩
    rw [step_out h]
    cases hr : s.input.rst
    · obtain ⟨-, hp, hf, -⟩ := State.outputs_noReset (s := s.beginCycle) hr
      rw [hp, hf]
      exact s.beginCycle.not_popping_and_flushing
    · obtain ⟨-, hp, -⟩ := State.outputs_reset (s := s.beginCycle) hr
      simp [hp]

end Sys2Proof.Machine
end

section
/-! SUPPORT. The idle cycle without a host write (20_memory.md R37, R46): the channel's own start of the cycle and the
end of the cycle are all of it. -/

namespace Sys2Proof.Machine

/-- `HostRead` does not see the channel, which is all that the start of a cycle changes (R38). -/
@[simp] theorem State.beginCycle_hostRead (s : State) (a : BitVec 11) : s.beginCycle.hostRead a = s.hostRead a := rfl

/-- The byte read in a cycle is `HostRead` of the address, in the state before the step (R37, R121). -/
theorem step_hRdata {s t : State} (h : step s = .next t) : t.env.out.hRdata = s.hostRead s.bus.addr := by
  rw [step_out h]
  exact s.beginCycle_hostRead s.bus.addr

/-- An idle block that the host does not write keeps the state held during the cycle (R124). -/
theorem step_idle_noWrite {s : State} (hs : s.st = .idle) (hr : s.input.rst = false) (hw : s.bus.we = false) :
    step s = .next (s.beginCycle.endCycle s.beginCycle) := by
  rw [step_idle s hs hr, State.hostCycle_noWrite (s := s.beginCycle) hw]

/-- Settles O44: the held state differs from `s` in the channel only, and the end of the cycle touches the environment
alone. -/
theorem hostReadHasNoSideEffect : Obligations.HostReadHasNoSideEffect := by
  intro s hs hr hw
  have hstep := step_idle_noWrite hs hr hw
  exact ⟨_, hstep, rfl, rfl, rfl, fun _ => step_hRdata hstep⟩

end Sys2Proof.Machine
end

section
/-! SUPPORT. The encodings (30_encoding.md R53 to R64): decoding inverts encoding on every instruction whose fields have
the sizes that its encoding can state, and whatever decodes is such an instruction. -/

namespace Sys2Proof

/-! ### Well-formedness without the CRC -/

/-- What `Instr.wf` asks of an instruction apart from the CRC of a request: an illegal opcode is none of the ten legal
ones, and the variable parts have sizes that the encoding can state (R55, R59, R60, R62). -/
def Instr.Shaped : Instr → Prop
  | .illegal v => illegalOpcode v = true
  | .reqWriteMulti _ _ n d _ => n.toNat ≤ maxCount ∧ d.length = 2 * n.toNat
  | .rspRead _ d _ => d.length ≤ 255
  | .rspError _ f c _ => validFunction f = false ∧ (c.length = 1 ∨ c.length = 2)
  | _ => True

/-- A frame given as body and CRC is valid when the CRC is the body's (R83). -/
theorem crcValid_append_crcTail (body : List Byte) (k : Word) :
    crcValid (body ++ crcTail k) = true ↔ k = crc16 body := by
  rw [crcValid, crcField_append_crcTail, crcBody_append_crcTail, decide_eq_true_eq]

/-- Well-formedness is the shape, and for a request the CRC (R56, R57 to R62). -/
theorem Instr.wellFormed_iff (i : Instr) :
    i.WellFormed ↔ i.Shaped ∧ (i.format = .wireReq → crcValid (encode i) = true) := by
  cases i with
  | reqReadHolding u a n k =>
    simp [Instr.WellFormed, Instr.wf, Instr.Shaped, Instr.format, encode, crcValid_append_crcTail]
  | reqWriteSingle u a v k =>
    simp [Instr.WellFormed, Instr.wf, Instr.Shaped, Instr.format, encode, crcValid_append_crcTail]
  | reqWriteMulti u a n d k =>
    simp [Instr.WellFormed, Instr.wf, Instr.Shaped, Instr.format, encode, crcValid_append_crcTail, and_assoc]
  | _ => simp [Instr.WellFormed, Instr.wf, Instr.Shaped, Instr.format]

/-- The encoding of an instruction has the length that R53 and R57 to R64 give it, whatever its CRC. -/
theorem Instr.Shaped.byteLength {i : Instr} (h : i.Shaped) : i.byteLength = (encode i).length := by
  cases i with
  | reqWriteMulti u a n d k =>
    obtain ⟨-, hd⟩ := h
    simp only [encode, Instr.byteLength, List.length_append, multiBody_length, crcTail_length, hd]
    omega
  | rspRead u d k => simp [encode, Instr.byteLength, floorLen]
  | rspError u f c k => simp [encode, Instr.byteLength]
  | _ => rfl

/-! ### Decoding an encoding -/

theorem decodeCommand_illegal {v : Byte} (h : illegalOpcode v = true) : decodeCommand v = .illegal v := by
  simp only [illegalOpcode, legalOpcodes, List.contains_cons, List.contains_nil, Bool.or_false, Bool.not_eq_true',
    Bool.or_eq_false_iff, beq_eq_false_iff_ne, ne_eq] at h
  simp [decodeCommand, h]

/-- The byte count of an admitted write-multiple request is the number of its data bytes (R59, D25). -/
theorem byteCount_toNat {n : Word} (h : n.toNat ≤ maxCount) : (byteCount n).toNat = 2 * n.toNat :=
  toNat_len8 (by simp only [maxCount] at h; omega)

/-- Decode of encode: the fields come back out of the bytes (R57 to R62). -/
theorem Instr.Shaped.decode_encode {i : Instr} (h : i.Shaped) : decode i.format (encode i) = .ok i := by
  cases i with
  | illegal v => exact congrArg _ (decodeCommand_illegal h)
  | reqReadHolding u a n k => simp [Instr.format, encode, decode, decodeRequest, reqHeader, crcTail]
  | reqWriteSingle u a v k =>
    simp [Instr.format, encode, decode, decodeRequest, reqHeader, crcTail, fcRead, fcWriteSingle]
  | reqWriteMulti u a n d k =>
    obtain ⟨hn, hd⟩ := h
    have hlen : d.length = (byteCount n).toNat := by rw [byteCount_toNat hn, hd]
    simp [Instr.format, encode, decode, decodeRequest, multiBody, reqHeader, crcTail, fcRead, fcWriteSingle,
      fcWriteMulti, Nat.not_lt.2 hn, ← hlen]
  | rspRead u d k =>
    have hlen : d.length = (len8 d.length).toNat := (toNat_len8 (Nat.lt_succ_of_le h)).symm
    simp [Instr.format, encode, decode, decodeResponse, crcTail, ← hlen]
  | rspWriteSingleAck u a v k =>
    simp [Instr.format, encode, decode, decodeResponse, reqHeader, crcTail, fcRead, fcWriteSingle]
  | rspWriteMultiAck u a n k =>
    simp [Instr.format, encode, decode, decodeResponse, reqHeader, crcTail, fcRead, fcWriteSingle, fcWriteMulti]
  | rspError u f c k =>
    obtain ⟨hf, hc⟩ := h
    obtain ⟨⟨h3, h6⟩, h10⟩ : (f ≠ fcRead ∧ f ≠ fcWriteSingle) ∧ f ≠ fcWriteMulti := by
      simpa [validFunction] using hf
    rcases hc with hc | hc
    · obtain ⟨c0, rfl⟩ := List.length_eq_one_iff.1 hc
      simp [Instr.format, encode, decode, decodeResponse, crcTail, h3, h6, h10]
    · obtain ⟨c0, c1, rfl⟩ := List.length_eq_two.1 hc
      simp [Instr.format, encode, decode, decodeResponse, crcTail, h3, h6, h10]
  | _ => rfl

/-- Settles O2: a well-formed instruction is shaped as `decode_encode` asks. -/
theorem decodeOfEncode : Obligations.DecodeOfEncode := fun i h => ((Instr.wellFormed_iff i).1 h).1.decode_encode

/-! ### What decodes is shaped -/

theorem decodeCommand_shaped (v : Byte) : (decodeCommand v).Shaped := by
  by_cases h : illegalOpcode v = true
  · rw [decodeCommand_illegal h]; exact h
  · have hv : v ∈ legalOpcodes := by simpa [illegalOpcode] using h
    simp only [legalOpcodes, List.mem_cons, List.not_mem_nil, or_false] at hv
    rcases hv with rfl | rfl | rfl | rfl | rfl | rfl | rfl | rfl | rfl | rfl <;> exact trivial

/-- As many bytes as are counted stand in front of a CRC that is found behind them. -/
theorem length_take_of_drop {l : List Byte} {n : Nat} {k0 k1 : Byte} (h : l.drop n = [k0, k1]) :
    (l.take n).length = n := by
  have hl := congrArg List.length h
  simp only [List.length_drop, List.length_cons, List.length_nil] at hl
  rw [List.length_take]
  omega

theorem decodeRequest_shaped {bs : List Byte} {i : Instr} (h : decodeRequest bs = .ok i) : i.Shaped := by
  unfold decodeRequest at h
  split at h
  · split at h
    · split at h <;> cases h
      exact trivial
    split at h
    · split at h <;> cases h
      exact trivial
    split at h
    · split at h
      · next a1 a0 n1 n0 bc tail =>
        split at h
        · cases h
        next hn =>
        split at h
        · cases h
        next hb =>
        split at h
        · next hk =>
          cases h
          have hn : (join n1 n0).toNat ≤ maxCount := Nat.not_lt.1 hn
          refine ⟨hn, ?_⟩
          rw [length_take_of_drop hk, not_not.1 hb, byteCount_toNat hn]
        · cases h
      · cases h
    · cases h
  · cases h

theorem decodeResponse_shaped {bs : List Byte} {i : Instr} (h : decodeResponse bs = .ok i) : i.Shaped := by
  unfold decodeResponse at h
  split at h
  · next u fc rest =>
    split at h
    · split at h
      · next bc tail =>
        split at h
        · next hk =>
          cases h
          show (List.take _ _).length ≤ 255
          rw [length_take_of_drop hk]
          omega
        · cases h
      · cases h
    split at h
    · split at h <;> cases h
      exact trivial
    split at h
    · split at h <;> cases h
      exact trivial
    next h3 h6 h10 =>
    have hf : validFunction fc = false := by simp [validFunction, h3, h6, h10]
    split at h
    · cases h; exact ⟨hf, .inl rfl⟩
    · cases h; exact ⟨hf, .inr rfl⟩
    · cases h
  · cases h

/-- Whatever decodes has the sizes its encoding states (R55, R59, R60, R62). -/
theorem shaped_of_decode {f : Format} {bs : List Byte} {i : Instr} (h : decode f bs = .ok i) : i.Shaped := by
  cases f with
  | cmd =>
    match bs, h with
    | [v], h => cases h; exact decodeCommand_shaped v
  | wireReq => exact decodeRequest_shaped h
  | wireRsp => exact decodeResponse_shaped h

/-- Settles O3: a decoded instruction is shaped, and its encoding is the bytes it was read from. -/
theorem decodedInstructionIsWellFormed : Obligations.DecodedInstructionIsWellFormed := by
  intro f bs i h
  obtain ⟨rfl, rfl⟩ := encode_of_decode h
  have hs := shaped_of_decode h
  exact ⟨rfl, hs.byteLength, fun hf => i.wellFormed_iff.2 ⟨hs, fun hr => absurd hr hf⟩,
    fun _ hc => i.wellFormed_iff.2 ⟨hs, fun _ => hc⟩⟩

/-- Settles O1: the decoder, run on the nine words. -/
theorem writtenOutWordsDecode : Obligations.WrittenOutWordsDecode := by
  unfold Obligations.WrittenOutWordsDecode
  decide

end Sys2Proof
end

section
/-! SUPPORT. The three builds (42_serializer.md R88 to R90) in terms of the bytes they leave, and BUILD_READ,
BUILD_WRITE_SINGLE and BUILD_WRITE_MULTI, which end behind them. -/

namespace Sys2Proof.Machine

/-- An eight-byte request written into `TX_BUF[0..7]` is read back from any state with that memory, and nothing else is
written (R82, R88, R89). -/
theorem State.headerWritten {s t : State} {u fc : Byte} {a v : Word}
    (hm : t.mem = (s.writeTx 0 (stamped (reqHeader u fc a v))).mem) (hr : t.env.resets = s.env.resets) :
    t.txBytes 0 8 = stamped (reqHeader u fc a v) ∧
      ∀ b, b < txBase ∨ txBase + 8 ≤ b → t.byteAt b = s.byteAt b := by
  refine ⟨?_, fun b hb => ?_⟩
  · rw [State.txBytes_congr hm hr]
    exact s.writeTx_bytes 0 (stamped (reqHeader u fc a v)) (by simp)
  · rw [State.byteAt_congr hm hr, State.writeTx_other _ _ _ _ (by simpa using hb)]

/-- A write-multiple build that is not refused leaves, in any state with its memory and length, the header, the host's
data and the CRC as the frame in `TX_BUF`, and nothing else is written (R59, R90). -/
theorem State.multiBuilt {s t : State} {c : Word} (hn : s.val.toNat ≤ 123) (hm : t.mem = (s.multiWritten c).mem)
    (hr : t.env.resets = s.env.resets) (hl : t.txLen = len8 (9 + 2 * s.val.toNat)) :
    t.txCount = 9 + 2 * s.val.toNat ∧
      t.txFrame = multiBody s.unitId s.addr s.val (s.txBytes 7 (2 * s.val.toNat)) ++ crcTail c ∧
      ∀ a, a < txBase ∨ txBase + 7 ≤ a → a ≠ txBase + 7 + 2 * s.val.toNat → a ≠ txBase + 8 + 2 * s.val.toNat →
        t.byteAt a = s.byteAt a := by
  have hc : t.txCount = 9 + 2 * s.val.toNat := by rw [State.txCount, hl, toNat_len8 (by omega)]
  refine ⟨hc, ?_, fun a h h7 h8 => ?_⟩
  · rw [State.txFrame, hc, State.txBytes_congr hm hr, s.multiWritten_bytes c hn]
  · rw [State.byteAt_congr hm hr, s.multiWritten_other c a h h7 h8]

/-- Settles O16: the build writes the stamped header of R57. -/
theorem buildReadWritesTheRequest : Obligations.BuildReadWritesTheRequest := by
  intro s hs hph hpend hl
  rw [exec_stage_act rfl hs hl, State.action, hph]
  exact ⟨_, congrArg _ (State.built_buildEnd_none _ _ _ _ hpend), rfl, State.headerWritten rfl rfl⟩

/-- Settles O17: the build writes the stamped header of R58. -/
theorem buildWriteSingleWritesTheRequest : Obligations.BuildWriteSingleWritesTheRequest := by
  intro s hs hph hpend hl
  rw [exec_stage_act rfl hs hl, State.action, hph]
  exact ⟨_, congrArg _ (State.built_buildEnd_none _ _ _ _ hpend), rfl, State.headerWritten rfl rfl⟩

/-- Settles O18: above 123 registers the build is refused, else it leaves the frame of R59. -/
theorem buildWriteMultiWritesTheRequest : Obligations.BuildWriteMultiWritesTheRequest := by
  intro s hs hph hpend hl
  rw [exec_stage_act rfl hs hl, State.action, hph]
  refine ⟨fun hn => ?_, fun hn => ?_⟩
  · exact congrArg _ (State.actBuildWriteMulti_refused hn)
  · obtain ⟨m, c, he, hm, hc⟩ := s.actBuildWriteMulti_ok hn
    rw [State.built_buildEnd_none _ _ _ _ hpend] at he
    rw [← multiBody_eq, ← hc]
    exact ⟨_, congrArg _ he, rfl, State.multiBuilt hn hm rfl rfl⟩

end Sys2Proof.Machine
end

section
/-! SUPPORT. A complete response in CHECK (44_reassembly.md R110 to R115): its classification by function code, and that
under the receive invariant it decodes and is the current instruction. -/

namespace Sys2Proof.Machine

/-! ### Classification -/

/-- The last CHECK cycle of a response given as body and CRC (R110, R114, R115). -/
theorem State.responseCycle_append {s : State} (hs : s.st = .check) (hl : s.lat ≤ 1) (c : RxClass) (fc : Byte)
    (body : List Byte) (k : Word) :
    s.responseCycle c fc (body ++ crcTail k) =
      { s with
        rxPayloadOff := (payloadOf c (body.length + 2)).1, rxPayloadLen := (payloadOf c (body.length + 2)).2
        crcCalc := crc16 body, crcRecv := k, crcMatch := decide (k = crc16 body)
        status := if k = crc16 body then statusCode (statusOf fc) else 0x12#8
        st := .idle, phase := .none, pend := .none, lat := 0 } := by
  rw [s.responseCycle_act hs hl, State.judge_append, statusCode_ite]

/-- Settles O32: class READ, whose payload is all but three bytes in front and the CRC behind. -/
theorem readResponseIsClassified : Obligations.ReadResponseIsClassified := by
  intro u d k s _ hs hl
  exact congrArg _ (State.responseCycle_append hs hl .read fcRead (u :: fcRead :: len8 d.length :: d) k)

/-- Settles O33: class WACK for both function codes. -/
theorem writeAcknowledgementIsClassified : Obligations.WriteAcknowledgementIsClassified := by
  intro u a v k s hs hl
  exact ⟨congrArg _ (State.responseCycle_append hs hl .wack fcWriteSingle (reqHeader u fcWriteSingle a v) k),
    congrArg _ (State.responseCycle_append hs hl .wack fcWriteMulti (reqHeader u fcWriteMulti a v) k)⟩

/-- Any function code but the three valid ones reports `slaveError` on a matching CRC (R115). -/
theorem statusOf_error {f : Byte} (h3 : f ≠ fcRead) (h6 : f ≠ fcWriteSingle) (h10 : f ≠ fcWriteMulti) :
    statusOf f = .slaveError := by
  simp [statusOf, h3, h6, h10]

/-- Settles O34: class ERR, whose payload is all but two bytes in front and the CRC behind. -/
theorem errorResponseIsClassified : Obligations.ErrorResponseIsClassified := by
  intro u f c k s h3 h6 h10 _ hs hl
  have h := State.responseCycle_append hs hl .err f (u :: f :: c) k
  rw [statusOf_error h3 h6 h10] at h
  exact congrArg _ h

/-! ### Which byte sequences decode as a response -/

theorem classOf_eq_read {fc : Byte} : classOf fc = .read ↔ fc = fcRead := by
  unfold classOf
  by_cases h3 : fc = fcRead <;> by_cases hw : fc = fcWriteSingle ∨ fc = fcWriteMulti <;> simp [h3, hw]

theorem classOf_eq_wack {fc : Byte} : classOf fc = .wack ↔ fc = fcWriteSingle ∨ fc = fcWriteMulti := by
  unfold classOf
  by_cases h3 : fc = fcRead
  · subst h3; decide
  · by_cases hw : fc = fcWriteSingle ∨ fc = fcWriteMulti <;> simp [h3, hw]

theorem classOf_eq_err {fc : Byte} :
    classOf fc = .err ↔ fc ≠ fcRead ∧ fc ≠ fcWriteSingle ∧ fc ≠ fcWriteMulti := by
  unfold classOf
  by_cases h3 : fc = fcRead
  · simp [h3]
  · by_cases hw : fc = fcWriteSingle ∨ fc = fcWriteMulti
    · simp [h3, hw, ← not_or]
    · simp [h3, not_or.1 hw]

/-- A read response as long as its byte count says decodes (R60). -/
theorem exists_decode_read {fc : Byte} (hc : classOf fc = .read) (u bc : Byte) {tail : List Byte}
    (h : tail.length = bc.toNat + 2) : ∃ i, decode .wireRsp (u :: fc :: bc :: tail) = .ok i := by
  obtain rfl := classOf_eq_read.1 hc
  obtain ⟨k0, k1, hk⟩ : ∃ k0 k1, tail.drop bc.toNat = [k0, k1] :=
    List.length_eq_two.1 (by rw [List.length_drop, h, Nat.add_sub_cancel_left])
  exact ⟨.rspRead u (tail.take bc.toNat) (join k1 k0), by simp [decode, decodeResponse, hk]⟩

/-- Eight bytes with the function code of a write decode as its acknowledgement (R61). -/
theorem exists_decode_ack {fc : Byte} (hc : classOf fc = .wack) (u : Byte) {rest : List Byte}
    (h : rest.length = 6) : ∃ i, decode .wireRsp (u :: fc :: rest) = .ok i := by
  match rest, h with
  | [a1, a0, v1, v0, k0, k1], _ =>
    rcases classOf_eq_wack.1 hc with rfl | rfl
    · exact ⟨.rspWriteSingleAck u (join a1 a0) (join v1 v0) (join k1 k0), rfl⟩
    · exact ⟨.rspWriteMultiAck u (join a1 a0) (join v1 v0) (join k1 k0), rfl⟩

/-- Five or six bytes with any other function code decode as an error response (R62). -/
theorem exists_decode_error {fc : Byte} (hc : classOf fc = .err) (u : Byte) {rest : List Byte}
    (h : rest.length = 3 ∨ rest.length = 4) : ∃ i, decode .wireRsp (u :: fc :: rest) = .ok i := by
  obtain ⟨h3, h6, h10⟩ := classOf_eq_err.1 hc
  rcases h with h | h
  · obtain ⟨c, k0, k1, rfl⟩ := List.length_eq_three.1 h
    exact ⟨.rspError u fc [c] (join k1 k0), by simp [decode, decodeResponse, h3, h6, h10]⟩
  · match rest, h with
    | [c0, c1, k0, k1], _ =>
      exact ⟨.rspError u fc [c0, c1] (join k1 k0), by simp [decode, decodeResponse, h3, h6, h10]⟩

/-! ### The complete response -/

/-- The first byte of a piece of `RX_FRAME`, and the rest. -/
theorem State.rxBytes_succ (s : State) (i n : Nat) :
    s.rxBytes i (n + 1) = s.rxByte i :: s.rxBytes (i + 1) n := by
  simp only [State.rxBytes, List.range_succ_eq_map, List.map_cons, List.map_map, Nat.add_zero]
  exact congrArg _ (List.map_congr_left fun k _ => congrArg s.rxByte (Nat.add_right_comm i k 1))

/-- `RX_FRAME` holds as many bytes as a response of its class has (R60 to R62). -/
def State.Complete (s : State) : Prop :=
  s.cls = .read ∧ s.pos.toNat = (s.rxByte 2).toNat + 5 ∨ s.cls = .wack ∧ s.pos.toNat = 8 ∨
    s.cls = .err ∧ (s.pos.toNat = 5 ∨ s.pos.toNat = 6)

theorem State.Complete.five_le {s : State} (h : s.Complete) : 5 ≤ s.pos.toNat := by
  unfold State.Complete at h
  omega

/-- The frame that CHECK compares is complete by its class (R109, R113). -/
theorem State.complete_of_rxInv {s : State} (hs : s.st = .check) (hi : s.rxInv)
    (hc : s.tmo = false ∨ s.cls = .err ∧ s.pos = 5#9) : s.Complete := by
  obtain ⟨-, hend, hexp, -, -, hhigh⟩ := (State.rxInv_check hs).1 hi
  rcases hc with ht | ⟨he, h5⟩
  · have hlen : s.pos.toNat = s.expectedLength := by
      rw [ht, if_neg Bool.false_ne_true] at hend
      rw [hend, hexp]
    have hge : 5 ≤ s.pos.toNat := hlen ▸ s.expectedLength_bounds.1
    obtain ⟨-, hcls⟩ := hhigh (by omega)
    rw [State.expectedLength] at hlen
    cases hk : s.cls with
    | none => exact absurd (hcls.symm.trans hk) (classOf_ne_none _)
    | read =>
      simp only [hk, floorLen] at hlen
      rw [if_neg (by omega)] at hlen
      exact .inl ⟨hk, hlen⟩
    | wack => exact .inr (.inl ⟨hk, by simpa [hk, wackLen] using hlen⟩)
    | err => exact .inr (.inr ⟨hk, .inr (by simpa [hk, floorLen] using hlen)⟩)
  · exact .inr (.inr ⟨he, .inl (by rw [h5]; rfl)⟩)

/-- A complete response decodes (R63). -/
theorem State.Complete.exists_decode {s : State} (h : s.Complete) (hcls : classOf (s.rxByte 1) = s.cls) :
    ∃ i, decode .wireRsp s.rxFrame = .ok i := by
  have hsplit : ∀ n, s.pos.toNat = n + 2 → s.rxFrame = s.rxByte 0 :: s.rxByte 1 :: s.rxBytes 2 n := by
    intro n hn
    rw [State.rxFrame, hn, State.rxBytes_succ, State.rxBytes_succ]
  rcases h with ⟨hk, hn⟩ | ⟨hk, hn⟩ | ⟨hk, hn⟩
  · rw [hsplit ((s.rxByte 2).toNat + 2 + 1) hn, State.rxBytes_succ]
    exact exists_decode_read (hcls.trans hk) _ _ (s.rxBytes_length _ _)
  · rw [hsplit 6 hn]
    exact exists_decode_ack (hcls.trans hk) _ (s.rxBytes_length _ _)
  · rw [hsplit (s.pos.toNat - 2) (by omega)]
    exact exists_decode_error (hcls.trans hk) _ (by rw [State.rxBytes_length]; omega)

/-- The current response is what `RX_FRAME` decodes to, when the loop's bookkeeping is that of its bytes (R107, R110). -/
theorem State.currentResponse_eq {s : State} {i : Instr} (hp : s.pos ≠ 0#9) (ht : s.truncated = false)
    (hfc : s.rxFrame[1]? = some s.rxFc) (hcls : s.cls = classOf s.rxFc) (hd : decode .wireRsp s.rxFrame = .ok i) :
    s.currentResponse = some i := by
  unfold State.currentResponse
  rw [if_neg (by simp [hp, ht, hfc, hcls]), hd]

theorem State.current_check {s : State} (hs : s.st = .check) :
    s.current = some (s.currentResponse.getD (decodeCommand s.op)) := by
  simp [State.current, hs]

/-- Settles O48: the frame is complete by its class, so it decodes; the encoder gives its bytes back. -/
theorem completeResponseIsTheCurrentInstruction : Obligations.CompleteResponseIsTheCurrentInstruction := by
  intro s hs hi hp hc
  have hcomplete := State.complete_of_rxInv hs hi hc
  have hlen := hcomplete.five_le
  obtain ⟨-, -, -, -, -, hhigh⟩ := (State.rxInv_check hs).1 hi
  obtain ⟨hfc, hcls⟩ := hhigh (by omega)
  obtain ⟨i, hd⟩ := hcomplete.exists_decode (by rw [← hfc, hcls])
  obtain ⟨-, he⟩ := encode_of_decode hd
  have ht : s.truncated = false := by
    rw [Bool.eq_false_iff, ne_eq, State.truncated_iff, not_and, not_not]
    exact fun h => hc.resolve_left (by simp [h])
  have hget : s.rxFrame[1]? = some s.rxFc := by
    rw [hfc, List.getElem?_eq_getElem (by rw [State.rxFrame_length]; omega)]
    exact congrArg some (s.getElem_rxBytes _ _ _ _)
  refine ⟨i, hd, he, ?_⟩
  rw [State.current_check hs, State.currentResponse_eq hp ht hget hcls hd, Option.getD_some]

end Sys2Proof.Machine
end

section
/-! SUPPORT. The host's polling loop (30_encoding.md R67): bit 0 of the FLAGS value it reads. -/

namespace Sys2Proof.Machine

/-- Bit 0 of FLAGS is BUSY (R19, R75). -/
theorem State.flags_bit0 (s : State) : s.flags.getLsbD 0 = s.busy := (flagByte_bits _ _ _).1

/-- In a cycle of `wait` the host reads FLAGS, and repeats the loop while it finds BUSY (R67). -/
theorem State.hostRest_wait {s : State} {rest : List HostOp} (h : s.env.host = .wait :: rest) :
    s.hostRest = if s.busy then .wait :: rest else rest := by
  have hf : s.hostRead addrFlags = s.flags := rfl
  rw [State.hostRest, h, ← s.flags_bit0, ← hf]

/-- Settles O45: the step records the FLAGS value read and leaves what `hostRest_wait` says of the program. -/
theorem waitLoopPollsBusy : Obligations.WaitLoopPollsBusy := by
  intro s t rest hw h
  have hbus : s.bus.addr = addrFlags := by rw [State.bus, hw]; rfl
  have hhost : t.env.host = if s.busy then .wait :: rest else rest := by
    obtain ⟨u, rfl, -⟩ := step_edge h
    exact State.hostRest_wait (s := s.beginCycle) hw
  refine ⟨?_, fun hb => by rw [hhost, hb]; rfl, fun hb => by rw [hhost, hb]; rfl⟩
  rw [step_hRdata h, hbus]
  rfl

end Sys2Proof.Machine
end

section
/-! SUPPORT. Dispatch (40_dispatch.md R68 to R73): which instruction a cycle runs, acceptance, the countdown of a stage,
the illegal opcodes, and the builds that go on into an exchange. -/

namespace Sys2Proof

/-- The illegal opcodes are the words that are none of the ten legal ones (R54, R55). -/
theorem illegalOpcode_iff (v : Byte) : illegalOpcode v = true ↔ v ∉ legalOpcodes := by simp [illegalOpcode]

end Sys2Proof

namespace Sys2Proof.Machine

/-! ### The current instruction -/

/-- A step of a cycle that is no reset and has a current instruction runs it (R120). -/
theorem step_current {s : State} {i : Instr} (hr : s.input.rst = false) (hc : s.beginCycle.current = some i) :
    step s = endOutcome s.beginCycle (exec i s.beginCycle) := by
  simp [step, State.cycleWith, hr, hc]

/-- In IDLE the current instruction is the command word that the host writes to `CMD` (R68). -/
theorem State.current_idle {s : State} (hs : s.st = .idle) (hw : s.bus.we = true) (ha : s.bus.addr = addrCmd) :
    s.current = some (decodeCommand s.bus.wdata) := by
  simp [State.current, hs, hw, ha]

/-- In TX a frame in `TX_BUF` that decodes is the current instruction (R94). -/
theorem State.current_tx {s : State} {i : Instr} (hs : s.st = .tx) (hd : decode .wireReq s.txFrame = .ok i) :
    s.current = some i := by
  have hreq : s.currentRequest = some i := by simp [State.currentRequest, hd]
  simp [State.current, hs, hreq]

/-- In STAGE, DRAIN and RX the current instruction is the running command (R70, R120). -/
theorem State.current_running {s : State} (hs : s.st = .stage ∨ s.st = .drain ∨ s.st = .rx) :
    s.current = some (decodeCommand s.op) := by
  rcases hs with hs | hs | hs <;> simp [State.current, hs]

/-- Settles O47: the definition of the step, and of the current instruction in each control state. -/
theorem stepRunsTheCurrentInstruction : Obligations.StepRunsTheCurrentInstruction := by
  refine ⟨fun s i => step_current, fun s i hs hw ha hd => ?_, fun s i => State.current_tx, fun s i hs hd => ?_⟩
  · cases hd
    exact State.current_idle hs hw ha
  · cases hd
    exact State.current_running hs

/-! ### Acceptance and the countdown -/

/-- Settles O8: an idle block issues the word (R69's table is `firstPhase`), and no cycle of a busy block writes
`LAST_CMD` or `op`. -/
theorem acceptanceOfCommands : Obligations.AcceptanceOfCommands := by
  refine ⟨fun v s hs => ⟨?_, s.one_le_drawLat⟩, fun s t hs hr h => ?_⟩
  · rw [exec_decodeCommand_idle v s hs, State.issue_eq]
  · rw [step_busy hr hs] at h
    obtain ⟨hcmd, hop, -⟩ := s.beginCycle.blockCycle_frame
    rw [← Outcome.next_inj h]
    exact ⟨hcmd, hop⟩

/-- Settles O10: a busy block runs its own cycle whatever the command, and in STAGE that cycle counts first. -/
theorem stageCountsDown : Obligations.StageCountsDown := by
  intro i s hi hs hl
  rw [exec_command_busy hi (by simp [hs]), State.blockCycle_stage hs, State.stageCycle_count hl]

/-! ### Illegal opcodes -/

/-- An illegal opcode begins with PH_BADOP, with nothing pending (R69). -/
theorem firstPhase_illegal {v : Byte} (h : v ∉ legalOpcodes) : firstPhase v = (.badOp, .none) := by
  simp only [legalOpcodes, List.mem_cons, List.not_mem_nil, or_false, not_or] at h
  simp [firstPhase, h]

/-- Settles O9: every word that is not legal falls through both tables, and PH_BADOP is `finish(commandError)`. -/
theorem illegalOpcodeEndsInCommandError : Obligations.IllegalOpcodeEndsInCommandError := by
  refine ⟨rfl, fun v hv => ⟨decodeCommand_illegal ((illegalOpcode_iff v).2 hv), firstPhase_illegal hv⟩,
    fun v s hs hph hl => ?_⟩
  rw [exec_stage_act rfl hs hl, State.action, hph]
  exact congrArg _ (s.finish_eq .commandError)

/-! ### Composite commands -/

/-- An eight-byte build with an exchange pending leaves the stamped request in `TX_BUF` and goes on to PH_XSTART (R69,
R88, R89). -/
theorem State.headerBuilt_exchange {s : State} (fc : Byte) (hpend : s.pend = .exchange) :
    ∃ t, (s.built (s.writeTx 0 (stamped (reqHeader s.unitId fc s.addr s.val))).mem 0x08#8
        (crc16 (reqHeader s.unitId fc s.addr s.val))).buildEnd = t ∧
      t = { s with
        mem := t.mem, txLen := 0x08#8, crcCalc := crc16 (reqHeader s.unitId fc s.addr s.val)
        phase := .xStart, pend := .none, lat := s.drawLat } ∧
      t.txFrame = stamped (reqHeader s.unitId fc s.addr s.val) ∧
      ∀ a, a < txBase ∨ txBase + 8 ≤ a → t.byteAt a = s.byteAt a :=
  ⟨_, State.built_buildEnd_exchange _ _ _ _ hpend, rfl, State.headerWritten rfl rfl⟩

/-- Settles O19: READ_REGS and WRITE_SINGLE differ in the function code alone; WRITE_MULTI is refused above 123
registers. -/
theorem compositeBuildContinuesIntoExchange : Obligations.CompositeBuildContinuesIntoExchange := by
  intro s hs hpend hl
  refine ⟨fun hph => ?_, fun hph => ?_, fun hph hn => ?_, fun hph hn => ?_⟩ <;>
    rw [exec_stage_act rfl hs hl, State.action, hph]
  · obtain ⟨t, he, ht⟩ := State.headerBuilt_exchange fcRead hpend
    exact ⟨t, congrArg _ he, ht⟩
  · obtain ⟨t, he, ht⟩ := State.headerBuilt_exchange fcWriteSingle hpend
    exact ⟨t, congrArg _ he, ht⟩
  · obtain ⟨m, c, he, hm, hc⟩ := s.actBuildWriteMulti_ok hn
    rw [State.built_buildEnd_exchange _ _ _ _ hpend] at he
    rw [stamped, ← hc]
    exact ⟨_, congrArg _ he, rfl, And.right (State.multiBuilt hn hm rfl rfl)⟩
  · exact congrArg _ (State.actBuildWriteMulti_refused hn)

end Sys2Proof.Machine
end

section
/-! SUPPORT. The CRC as a check (41_crc.md R79 to R84): the value a frame carries in its last two bytes, the CRC of a
stamped frame, and what a change of one byte does to the CRC of a sequence. -/

namespace Sys2Proof

/-! ### The value carried in the last two bytes -/

/-- Any two last bytes are the CRC bytes of the value read from them low byte first (R82, R83). -/
@[simp] theorem crcTail_join (h l : Byte) : crcTail (join h l) = [l, h] := by simp [crcTail]

/-- A 16-bit value is given by its two halves. -/
theorem join_eq_iff (h l : Byte) (c : Word) : join h l = c ↔ l = lo8 c ∧ h = hi8 c := by
  constructor
  · rintro rfl
    simp
  · rintro ⟨rfl, rfl⟩
    exact join_hi8_lo8 c

/-- A sequence of at least two bytes is a body with a 16-bit value behind it (R56). -/
theorem exists_eq_append_crcTail {f : List Byte} (hf : 2 ≤ f.length) : ∃ d k, f = d ++ crcTail k := by
  have htwo : (f.drop (f.length - 2)).length = 2 := by rw [List.length_drop]; omega
  obtain ⟨l, h, hd⟩ := List.length_eq_two.1 htwo
  exact ⟨f.take (f.length - 2), join h l, by rw [crcTail_join, ← hd, List.take_append_drop]⟩

/-- Settles O4: stamping appends the CRC of the body, which the test reads back. -/
theorem stampedFrameValidates : Obligations.StampedFrameValidates :=
  fun d => ⟨(crcValid_append_crcTail d _).2 rfl, rfl⟩

/-- Settles O5: each of the three forms compares both halves of the carried value with those of the CRC. -/
theorem validityFormsAgree : Obligations.ValidityFormsAgree := by
  intro body k0 k1
  refine ⟨?_, ?_, join_eq_iff k1 k0 _⟩
  · rw [← crcTail_join]
    exact crcValid_append_crcTail body _
  · rw [join_eq_iff k1 k0, join_eq_iff k0 k1, lo8_join, hi8_join, and_comm]

/-! ### Folding bytes in -/

/-- The shifts of R79 are `crcShift` iterated. -/
theorem crcShifts_eq_iterate (n : Nat) : crcShifts n = crcShift^[n] := by
  induction n with
  | zero => rfl
  | succ n ih => rw [Function.iterate_succ, ← ih]; rfl

/-- A sequence's CRC goes on from the CRC of its front part (R80). -/
theorem crc16_append (d e : List Byte) : crc16 (d ++ e) = e.foldl crcByte (crc16 d) := List.foldl_append

/-- With its low CRC byte behind it, a sequence has the CRC `0x00 ++ high byte` (R153). -/
theorem crc16_append_lo8 (d : List Byte) : crc16 (d ++ [lo8 (crc16 d)]) = join 0x00#8 (hi8 (crc16 d)) := by
  rw [crc16_append]
  exact crcByte_lo8 (crc16 d)

/-- With both CRC bytes behind it, a sequence has the CRC 0: the high byte is then the low byte of the running CRC
(R84). -/
theorem crc16_stamped (d : List Byte) : crc16 (stamped d) = 0x0000#16 := by
  have hsplit : stamped d = d ++ [lo8 (crc16 d)] ++ [hi8 (crc16 d)] := by simp [stamped, crcTail]
  have hfold : crcByte (join 0x00#8 (hi8 (crc16 d))) (hi8 (crc16 d)) = join 0x00#8 0x00#8 := by
    simpa using crcByte_lo8 (join 0x00#8 (hi8 (crc16 d)))
  rw [hsplit, crc16_append, crc16_append_lo8]
  exact hfold

/-- The check value (R81), folded byte by byte. -/
theorem crc16_checkString :
    crc16 [0x31#8, 0x32#8, 0x33#8, 0x34#8, 0x35#8, 0x36#8, 0x37#8, 0x38#8, 0x39#8] = 0x4B37#16 := by
  simp [crc16, crcByte, crcShifts, crcShift]

/-- Settles O6: the eight shifts, the fold, the check value by evaluation, and the two residues. -/
theorem crcResidues : Obligations.CrcResidues := by
  refine ⟨fun c b => ?_, rfl, fun d b => crc16_append d [b], crc16_checkString,
    fun d => ⟨crc16_append_lo8 d, crc16_stamped d⟩⟩
  rw [crcByte, crcShifts_eq_iterate]
  rfl

/-! ### A change of one byte -/

/-- Two running CRCs that fold the same bytes to the same value are equal. -/
theorem foldl_crcByte_inj (d : List Byte) : Function.Injective fun c => d.foldl crcByte c := by
  induction d with
  | nil => exact fun _ _ h => h
  | cons b d ih => exact fun _ _ h => crcByte_inj_left b (ih h)

/-- The CRC of a sequence determines any one of its bytes, the others being given. -/
theorem crc16_append_cons_inj (front back : List Byte) : Function.Injective fun b => crc16 (front ++ b :: back) := by
  intro a b h
  simp only [crc16_append, List.foldl_cons] at h
  exact crcByte_inj_right _ (foldl_crcByte_inj back h)

/-- Replacing a byte by another value changes the CRC of a sequence. -/
theorem crc16_set_ne {d : List Byte} {i : Nat} {v : Byte} (hi : i < d.length) (hv : d[i] ≠ v) :
    crc16 (d.set i v) ≠ crc16 d := by
  have hd : d = d.take i ++ d[i] :: d.drop (i + 1) := by simp
  intro h
  rw [List.set_eq_take_append_cons_drop, if_pos hi] at h
  exact hv (crc16_append_cons_inj _ _ (h.trans (congrArg crc16 hd))).symm

/-- A CRC field with one of its bytes changed carries another value. -/
theorem crcTail_set {k : Word} {j : Nat} {v : Byte} (hj : j < 2) (hv : (crcTail k)[j]? ≠ some v) :
    ∃ k', (crcTail k).set j v = crcTail k' ∧ k' ≠ k := by
  match j, hj with
  | 0, _ =>
    refine ⟨join (hi8 k) v, by rw [crcTail_join]; rfl, fun h => hv (congrArg some ?_)⟩
    exact ((join_eq_iff _ _ _).1 h).1.symm
  | 1, _ =>
    refine ⟨join v (lo8 k), by rw [crcTail_join]; rfl, fun h => hv (congrArg some ?_)⟩
    exact ((join_eq_iff _ _ _).1 h).2.symm

/-- Settles O7: a change in the body moves its CRC away from the carried value, one in the CRC bytes moves the carried
value away from the CRC. -/
theorem oneByteChangeIsDetected : Obligations.OneByteChangeIsDetected := by
  intro f i v hlen hvalid hi hv
  obtain ⟨d, k, rfl⟩ := exists_eq_append_crcTail hlen
  have hk : k = crc16 d := (crcValid_append_crcTail d k).1 hvalid
  rw [Bool.eq_false_iff, List.set_append]
  split
  next hbody =>
    rw [List.getElem?_append_left hbody, List.getElem?_eq_getElem hbody] at hv
    rw [ne_eq, crcValid_append_crcTail, hk]
    exact (crc16_set_ne hbody (fun h => hv (congrArg some h))).symm
  next htail =>
    rw [List.getElem?_append_right (Nat.not_lt.1 htail)] at hv
    rw [List.length_append, crcTail_length] at hi
    obtain ⟨k', hset, hne⟩ := crcTail_set (by omega) hv
    rw [hset, ne_eq, crcValid_append_crcTail, ← hk]
    exact hne

end Sys2Proof
end

section
/-! SUPPORT. The two CRC commands (41_crc.md R86, R87): what the last cycle of their stage does to the frame in
`TX_BUF`. -/

namespace Sys2Proof.Machine

/-- The last STAGE cycle of CRC_GEN (R70, R86). -/
theorem exec_crcGen_act {s : State} (hs : s.st = .stage) (hph : s.phase = .crcGen) (hl : s.lat ≤ 1) :
    exec .crcGen s = .next s.actCrcGen := by
  rw [exec_stage_act rfl hs hl, State.action, hph]

/-- The last STAGE cycle of CRC_CHECK (R70, R87). -/
theorem exec_crcCheck_act {s : State} (hs : s.st = .stage) (hph : s.phase = .crcChk) (hl : s.lat ≤ 1) :
    exec .crcCheck s = .next s.actCrcCheck := by
  rw [exec_stage_act rfl hs hl, State.action, hph]

/-- Settles O13: below two bytes the command is refused, else it stamps the CRC that `crcBody_txFrame` names. -/
theorem crcGenStampsTheFrame : Obligations.CrcGenStampsTheFrame := by
  refine ⟨rfl, fun s hs hph hl => ?_⟩
  rw [exec_crcGen_act hs hph hl]
  constructor
  · intro hshort
    rw [State.actCrcGen_short hshort]
    rfl
  · intro hlen
    rw [State.actCrcGen_ok hlen, State.crcBody_txFrame]
    exact ⟨_, rfl, rfl, s.stampTx_lo _ hlen, s.stampTx_hi _ hlen, fun a => s.stampTx_other _ a hlen⟩

/-- Settles O14: below two bytes the command is refused, else it compares the CRC that `crcBody_txFrame` names with the
two bytes of `crcField_txFrame`. -/
theorem crcCheckComparesTheFrame : Obligations.CrcCheckComparesTheFrame := by
  intro s hs hph hl
  rw [exec_crcCheck_act hs hph hl]
  constructor
  · intro hshort
    rw [State.actCrcCheck_short hshort]
    rfl
  · intro hlen
    rw [State.actCrcCheck_ok hlen, State.crcBody_txFrame, State.crcField_txFrame s hlen, State.finish_eq,
      statusCode_ite]
    exact ⟨_, rfl, rfl, rfl, rfl⟩

/-- CRC_CHECK finds a match in a frame that is stamped (R84, R87). -/
theorem State.actCrcCheck_stamped {s : State} {d : List Byte} (h : s.txFrame = stamped d) :
    s.actCrcCheck = ({ s with crcCalc := crc16 d, crcRecv := crc16 d, crcMatch := true } : State).finish .done := by
  have hlen : 2 ≤ s.txCount := by rw [← s.txFrame_length, h, stamped_length]; omega
  rw [State.actCrcCheck_ok hlen, h, stamped, crcField_append_crcTail, crcBody_append_crcTail]
  simp

/-- Settles O15: CRC_GEN leaves a stamped frame, in which CRC_CHECK finds the CRC that CRC_GEN computed. -/
theorem crcCheckAfterCrcGenMatches : Obligations.CrcCheckAfterCrcGenMatches := by
  intro s t u hs hph hl hlen hgen hchk
  rw [exec_crcGen_act hs hph hl, State.actCrcGen_ok hlen] at hgen
  have ht := Outcome.next_inj hgen
  have hcalc : t.crcCalc = crc16 (s.txBytes 0 (s.txCount - 2)) := by rw [← ht, ← s.crcBody_txFrame]; rfl
  have hframe : ({ t with st := .stage, phase := .crcChk, lat := 1 } : State).txFrame =
      stamped (s.txBytes 0 (s.txCount - 2)) :=
    State.txFrame_of_stampTx s _ hlen (by rw [← ht]; rfl) (by rw [← ht]; rfl) (by rw [← ht]; rfl)
  rw [exec_crcCheck_act rfl rfl (le_refl 1), State.actCrcCheck_stamped hframe] at hchk
  rw [← Outcome.next_inj hchk]
  exact ⟨rfl, rfl, hcalc.symm⟩

end Sys2Proof.Machine
end

section
/-! SUPPORT. The transmit side of an exchange (43_exchange.md R92 to R96, R101), one cycle at a time: PH_XSTART, a TX
cycle, a DRAIN cycle and FLUSH_RX. -/

namespace Sys2Proof.Machine

/-! ### PH_XSTART -/

/-- The last STAGE cycle of PH_XSTART, whichever of the four commands runs it (R70, R92). -/
theorem exec_xStart_act {i : Instr} {s : State} (hi : isExchangeCommand i = true) (hs : s.st = .stage)
    (hph : s.phase = .xStart) (hl : s.lat ≤ 1) : exec i s = .next s.actXStart := by
  rw [exec_stage_act (isExchangeCommand_format hi) hs hl, State.action, hph]

/-- PH_XSTART leaves the stamped frame in `TX_BUF` (R82, R92). -/
theorem State.actXStart_txFrame {s : State} (h : 2 ≤ s.txCount) :
    s.actXStart.txFrame = stamped (s.txBytes 0 (s.txCount - 2)) := by
  rw [State.actXStart_ok h]
  exact State.txFrame_of_stampTx s _ h rfl rfl rfl

/-- Settles O20: below two bytes the command is refused, else the closed form of the action is the record update. -/
theorem exchangeStartStampsClearsAndFlushes : Obligations.ExchangeStartStampsClearsAndFlushes := by
  intro i s hi hs hph hl
  rw [exec_xStart_act hi hs hph hl]
  constructor
  · intro hshort
    rw [State.actXStart_short hshort]
    rfl
  · intro hlen
    have hframe := State.actXStart_txFrame hlen
    rw [State.actXStart_ok hlen] at hframe ⊢
    exact ⟨_, rfl, rfl, hframe, fun a => s.stampTx_other _ a hlen⟩

/-- Settles O54: the result registers are cleared to constants, and the stamped frame depends on the frame alone. -/
theorem exchangeStartForgetsEarlierResults : Obligations.ExchangeStartForgetsEarlierResults := by
  intro s s' t t' hs hs' hph hph' hl hl' hlen hframe h2 ht ht'
  have hcount : s'.txCount = s.txCount := congrArg BitVec.toNat hlen.symm
  have h2' : 2 ≤ s'.txCount := hcount ▸ h2
  have hbody : s'.txBytes 0 (s'.txCount - 2) = s.txBytes 0 (s.txCount - 2) := by
    rw [hcount, ← s'.take_txBytes 0 s'.txCount _ (by omega), ← s.take_txBytes 0 s.txCount _ (by omega)]
    exact congrArg _ hframe.symm
  rw [exec_xStart_act rfl hs hph hl] at ht
  rw [exec_xStart_act rfl hs' hph' hl'] at ht'
  obtain rfl := Outcome.next_inj ht
  obtain rfl := Outcome.next_inj ht'
  refine ⟨by rw [State.actXStart_txFrame h2, State.actXStart_txFrame h2', hbody], ?_⟩
  rw [State.actXStart_ok h2, State.actXStart_ok h2']
  exact ⟨rfl, rfl, rfl, rfl, rfl, rfl, rfl, rfl, rfl, rfl, rfl, rfl, rfl, rfl, rfl⟩

/-! ### A TX cycle -/

/-- A TX cycle in which the channel takes nothing changes nothing (R94). -/
theorem State.txCycle_stalled {s : State} (hr : s.input.txReady = false) : s.txCycle = s := by
  simp [State.txCycle, State.sendCycle, hr]

/-- The last byte of the frame moves the block to DRAIN (R94). -/
theorem State.txCycle_last {s : State} (hr : s.input.txReady = true) (hk : s.txi.toNat + 1 = s.txCount) :
    s.txCycle = { s.handOver (s.txByte s.txi.toNat) with st := .drain } := by
  simp [State.txCycle, State.sendCycle, hr, hk]

/-- Any other byte of the frame moves the index on (R94). -/
theorem State.txCycle_next {s : State} (hr : s.input.txReady = true) (hk : s.txi.toNat + 1 ≠ s.txCount) :
    s.txCycle = { s.handOver (s.txByte s.txi.toNat) with txi := s.txi + 1 } := by
  simp [State.txCycle, State.sendCycle, hr, hk]

/-- In TX an exchange command, and the request that stands in `TX_BUF`, do the block's TX cycle (R94). -/
theorem exec_tx {i : Instr} {s : State}
    (hi : isExchangeCommand i = true ∨ i.format = .wireReq ∧ encode i = s.txFrame) (hs : s.st = .tx)
    (hk : s.txi.toNat < s.txCount) : exec i s = .next s.txCycle := by
  rcases hi with hi | ⟨hf, he⟩
  · rw [exec_command_busy (isExchangeCommand_format hi) (by simp [hs]), State.blockCycle_tx hs]
  · rw [exec_request hf, State.requestCycle, hs, s.getD_txFrame _ he _ hk, he]
    rfl

/-- Settles O21: the three cases of a TX cycle. -/
theorem transmitCycleHandsOverOneByte : Obligations.TransmitCycleHandsOverOneByte := by
  intro i s hi hs hk
  rw [exec_tx hi hs hk]
  exact ⟨fun hr => congrArg _ (State.txCycle_stalled hr), fun hr hlast => congrArg _ (State.txCycle_last hr hlast),
    fun hr hnext => congrArg _ (State.txCycle_next hr hnext)⟩

/-! ### A DRAIN cycle -/

theorem State.txEmpty_iff (s : State) : s.txEmpty = true ↔ s.chan.unsent = [] := by simp [State.txEmpty]

/-- While a taken byte is on the line, a DRAIN cycle changes nothing (R95). -/
theorem State.drainCycle_waits {s : State} (h : s.chan.unsent ≠ []) : s.drainCycle = s :=
  if_neg (mt s.txEmpty_iff.1 h)

/-- When the line is empty, a DRAIN cycle flushes and turns the line round (R95). -/
theorem State.drainCycle_turns {s : State} (h : s.chan.unsent = []) :
    s.drainCycle = { s.flushFifo with dir := false, wctr := 0, st := .rx } :=
  if_pos (s.txEmpty_iff.2 h)

/-- Settles O23: the two cases of a DRAIN cycle. -/
theorem drainFlushesAndTurnsRound : Obligations.DrainFlushesAndTurnsRound := by
  intro i s hi hs
  rw [exec_command_busy (isExchangeCommand_format hi) (by simp [hs]), State.blockCycle_drain hs]
  exact ⟨fun h => congrArg _ (State.drainCycle_waits h), fun h => congrArg _ (State.drainCycle_turns h)⟩

/-! ### FLUSH_RX -/

/-- Settles O24: PH_FLUSH is the flush and `finish(done)`. -/
theorem flushRxEmptiesTheFifo : Obligations.FlushRxEmptiesTheFifo := by
  refine ⟨rfl, fun s hs hph hl => ?_⟩
  rw [exec_stage_act rfl hs hl, State.action, hph]
  exact ⟨s.actFlush, rfl, rfl, rfl, rfl, rfl, fun _ => rfl⟩

/-! ### The line direction -/

/-- A host access of an idle block leaves `DIR` at 0 (R39, R96). -/
theorem State.hostCycle_dirInv {s : State} (hs : s.st = .idle) (hi : s.dirInv) : s.hostCycle.dirInv := by
  unfold State.dirInv at *
  rcases s.hostCycle_cases with h | ⟨_, _, _, _, _, _, h, -⟩ <;> rw [h]
  · simpa [State.issue, hs] using hi
  · exact hi

/-- Settles O58: reset, a host access and a cycle of the block each keep it. -/
theorem directionFollowsTransmission : Obligations.DirectionFollowsTransmission := by
  intro s t hi h
  obtain ⟨u, rfl, ⟨-, rfl⟩ | ⟨-, hs, rfl⟩ | ⟨-, -, rfl⟩⟩ := step_edge h
  · obtain ⟨-, -, hdir, -⟩ := s.beginCycle.resetEdge_Inv
    exact hdir
  · exact State.hostCycle_dirInv (s := s.beginCycle) hs hi
  · exact s.beginCycle.blockCycle_edge.dirInv hi

end Sys2Proof.Machine
end

section
/-! SUPPORT. Runs of a whole exchange (43_exchange.md R94, R95, 44_reassembly.md R122, R126): what a run leaves of its
schedule, the transmission of a frame, the receive loop against the transaction level, and the countdown of CHECK. -/

namespace Sys2Proof.Machine

/-! ### The schedule of a run -/

theorem State.input_eq {s : State} {i : CycleInput} {rest : List CycleInput} (h : s.env.inputs = i :: rest) :
    s.input = i := by
  simp [State.input, h]

/-- A step uses up one cycle of the schedule. -/
theorem step_inputs {s t : State} (h : step s = .next t) : t.env.inputs = s.env.inputs.tail := by
  obtain ⟨u, rfl, ⟨-, rfl⟩ | ⟨-, -, rfl⟩ | ⟨-, -, rfl⟩⟩ := step_edge h
  · rfl
  · simp [State.hostCycle_env]
  · obtain ⟨-, -, -, -, -, -, henv, -⟩ := s.beginCycle.blockCycle_frame
    simp [henv]

/-- A run uses up one cycle of the schedule in each step. -/
theorem runCycles_inputs {n : Nat} {s t : State} (h : runCycles n s = .next t) :
    t.env.inputs = s.env.inputs.drop n := by
  induction n generalizing s with
  | zero => cases h; rfl
  | succ n ih =>
    rw [runCycles, step_eq] at h
    rw [ih h, step_inputs (step_eq s), List.drop_tail]

/-- What every step of a kind of cycle keeps, a run of such cycles keeps. -/
theorem runCycles_keeps {P : State → Prop} {Q : CycleInput → Prop}
    (hstep : ∀ s, P s → Q s.input → ∃ t, step s = .next t ∧ P t) (ins : List CycleInput) {rest : List CycleInput}
    {s : State} (hin : s.env.inputs = ins ++ rest) (hQ : ∀ i ∈ ins, Q i) (hP : P s) :
    ∃ t, runCycles ins.length s = .next t ∧ P t := by
  induction ins generalizing s with
  | nil => exact ⟨s, rfl, hP⟩
  | cons i ins ih =>
    obtain ⟨u, hu, hPu⟩ := hstep s hP (by rw [State.input_eq hin]; exact hQ i List.mem_cons_self)
    have hin' : u.env.inputs = ins ++ rest := by rw [step_inputs hu, hin]; rfl
    obtain ⟨t, ht, hPt⟩ := ih hin' (fun j hj => hQ j (List.mem_cons_of_mem i hj)) hPu
    exact ⟨t, by rw [List.length_cons, runCycles_succ hu, ht], hPt⟩

/-! ### Stalls -/

/-- Settles O25: a TX cycle without `tx_ready` and a DRAIN cycle with a byte on the line change nothing of the block. -/
theorem stalledChannelKeepsTheCommandRunning : Obligations.StalledChannelKeepsTheCommandRunning := by
  intro s ins rest hin
  refine ⟨fun hs hQ => ?_, fun hs hline hQ => ?_⟩
  · refine runCycles_keeps (P := fun u => u.st = .tx ∧ u.txi = s.txi ∧ u.status = s.status)
      (Q := fun i => i.rst = false ∧ i.txReady = false) ?_ ins hin hQ ⟨hs, rfl, rfl⟩
    rintro u ⟨hu, hkeep⟩ ⟨hr, hready⟩
    refine ⟨_, step_busy hr (by simp [hu]), ?_⟩
    rw [State.blockCycle_tx (by exact hu), State.txCycle_stalled (by exact hready)]
    exact ⟨hu, hkeep⟩
  · suffices hrun : ∃ t, runCycles ins.length s = .next t ∧
        t.chan.unsent ≠ [] ∧ t.st = .drain ∧ t.dir = s.dir ∧ t.status = s.status by
      obtain ⟨t, ht, -, hkeep⟩ := hrun
      exact ⟨t, ht, hkeep⟩
    refine runCycles_keeps (Q := fun i => i.rst = false ∧ i.left = 0) ?_ ins hin hQ ⟨hline, hs, rfl, rfl⟩
    rintro u ⟨hline, hu, hkeep⟩ ⟨hr, hleft⟩
    have hheld : u.beginCycle.chan.unsent = u.chan.unsent := by simp [hleft]
    refine ⟨_, step_busy hr (by simp [hu]), ?_⟩
    rw [State.blockCycle_drain (by exact hu), State.drainCycle_waits (hheld ▸ hline)]
    exact ⟨hheld ▸ hline, hu, hkeep⟩

/-! ### What the two levels are compared by -/

/-- What has left the line, and what is still on it, in the order taken (R127). -/
def State.line (s : State) : List Byte := s.chan.sent ++ s.chan.unsent

/-- The part of the state that the two levels of an exchange agree on (R126): all but the control state with its
counters, the FIFO, which of the bytes on the line have left it, and the cycle's own bookkeeping. -/
def State.content (s : State) : State :=
  { s with
    st := .idle, lat := 0, txi := 0x00#8, wctr := 0
    chan := { fifo := [], unsent := [], sent := s.line }
    env := { s.env with host := [], inputs := [], cycle := 0, out := Outputs.quiet } }

/-- Bytes that leave the line move no byte in it (R127 duty (b)). -/
@[simp] theorem State.beginCycle_line (s : State) : s.beginCycle.line = s.line := by
  simp [State.line]

@[simp] theorem State.beginCycle_content (s : State) : s.beginCycle.content = s.content := by
  rw [State.content, State.beginCycle_line]
  rfl

@[simp] theorem State.endCycle_content (held u : State) : (held.endCycle u).content = u.content := rfl

/-- The content with the byte sequence `bs` carried by the line. -/
def State.carried (s : State) (bs : List Byte) : State := { s with chan := { s.chan with sent := s.chan.sent ++ bs } }

@[simp] theorem State.carried_carried (s : State) (b c : List Byte) :
    (s.carried b).carried c = s.carried (b ++ c) := by
  simp [State.carried]

/-- The channel takes one byte: the line carries it (R127 duty (a)). -/
@[simp] theorem State.handOver_content (s : State) (b : Byte) : (s.handOver b).content = s.content.carried [b] := by
  simp [State.content, State.carried, State.line, State.handOver]

/-! ### The transmission of a frame -/

/-- The first byte of a piece of `TX_BUF`, and the rest. -/
theorem State.txBytes_succ (s : State) (i n : Nat) : s.txBytes i (n + 1) = s.txByte i :: s.txBytes (i + 1) n := by
  simp only [State.txBytes, List.range_succ_eq_map, List.map_cons, List.map_map, Nat.add_zero]
  exact congrArg _ (List.map_congr_left fun k _ => congrArg s.txByte (Nat.add_right_comm i k 1))

/-- Outside TX nothing new gets on the line (R121, R127). -/
theorem step_unsent_suffix {s t : State} (hr : s.input.rst = false) (hs : s.st ≠ .tx) (h : step s = .next t) :
    t.chan.unsent <:+ s.chan.unsent := by
  obtain ⟨hout, hchan⟩ := channelFollowsTheOutputs
  obtain ⟨hvalid, -⟩ := hout s t hr h
  obtain ⟨-, hunsent, -⟩ := hchan s t h
  have hnew : t.chan.unsent = s.chan.unsent.drop s.input.left := by simpa [hvalid, hs] using hunsent
  rw [hnew]
  exact List.drop_suffix _ _

/-- A TX cycle of a ready channel puts `TX_BUF[txi]` on the line (R94). -/
theorem step_tx {s : State} (hs : s.st = .tx) (hr : s.input.rst = false) (hready : s.input.txReady = true) :
    ∃ t, step s = .next t ∧ t.content = s.content.carried [s.txByte s.txi.toNat] ∧
      t.chan.unsent.length ≤ s.chan.unsent.length + 1 ∧
      (s.txi.toNat + 1 = s.txCount → t.st = .drain) ∧
      (s.txi.toNat + 1 ≠ s.txCount → t.st = .tx ∧ t.txi = s.txi + 1) := by
  refine ⟨_, step_busy hr (by simp [hs]), ?_⟩
  rw [State.blockCycle_tx (by exact hs)]
  by_cases hk : s.txi.toNat + 1 = s.txCount
  · rw [State.txCycle_last (s := s.beginCycle) hready hk]
    refine ⟨(s.beginCycle.handOver_content _).trans (by rw [State.beginCycle_content]; rfl), ?_, fun _ => rfl,
      absurd hk⟩
    simp
  · rw [State.txCycle_next (s := s.beginCycle) hready hk]
    refine ⟨(s.beginCycle.handOver_content _).trans (by rw [State.beginCycle_content]; rfl), ?_, (absurd · hk),
      fun _ => ⟨hs, rfl⟩⟩
    simp

/-- The rest of a frame, from `txi` on, goes out over a ready channel in as many cycles as it has bytes (R94). -/
theorem runCycles_tx (ins : List CycleInput) {rest : List CycleInput} {s : State} (hne : ins ≠ []) (hs : s.st = .tx)
    (hin : s.env.inputs = ins ++ rest) (hlen : s.txi.toNat + ins.length = s.txCount)
    (hQ : ∀ i ∈ ins, i.rst = false ∧ i.txReady = true) :
    ∃ t, runCycles ins.length s = .next t ∧ t.st = .drain ∧
      t.content = s.content.carried (s.txBytes s.txi.toNat ins.length) ∧
      t.chan.unsent.length ≤ s.chan.unsent.length + ins.length := by
  induction ins generalizing s with
  | nil => exact absurd rfl hne
  | cons i ins ih =>
    obtain ⟨hr, hready⟩ := hQ i List.mem_cons_self
    rw [← State.input_eq hin] at hr hready
    obtain ⟨u, hu, hcont, hline, hlast, hnext⟩ := step_tx hs hr hready
    rw [List.length_cons] at hlen ⊢
    rw [runCycles_succ hu, State.txBytes_succ]
    by_cases hnil : ins = []
    · subst hnil
      exact ⟨u, rfl, hlast hlen, hcont, hline⟩
    · have hpos : 0 < ins.length := List.length_pos_of_ne_nil hnil
      obtain ⟨hst, htxi⟩ := hnext (by omega)
      have hidx : u.txi.toNat = s.txi.toNat + 1 := by
        have := s.txCount_lt
        rw [htxi]
        bv_omega
      have hcount : u.txCount = s.txCount := (congrArg State.txCount hcont :)
      have hbyte : u.txBytes (s.txi.toNat + 1) ins.length = s.txBytes (s.txi.toNat + 1) ins.length :=
        State.txBytes_congr (congrArg State.mem hcont) (congrArg (fun v => v.env.resets) hcont) _ _
      obtain ⟨t, ht, hdrain, hc, hl⟩ := ih hnil hst (by rw [step_inputs hu, hin]; rfl) (by omega)
        fun j hj => hQ j (List.mem_cons_of_mem i hj)
      refine ⟨t, ht, hdrain, ?_, by omega⟩
      rw [hc, hcont, hidx, hbyte, State.carried_carried]
      rfl

/-- Settles O22: the run of the whole frame from index 0, read off the content it leaves. -/
theorem wholeFrameGoesOutInOrder : Obligations.WholeFrameGoesOutInOrder := by
  intro s ins rest hs htxi hpos hin hlen hQ
  have hne : ins ≠ [] := List.ne_nil_of_length_pos (by omega)
  obtain ⟨t, ht, hdrain, hc, -⟩ := runCycles_tx ins hne hs hin (by rw [htxi, hlen]; exact Nat.zero_add _) hQ
  rw [hlen] at ht hc
  rw [htxi] at hc
  exact ⟨t, ht, hdrain, (congrArg State.dir hc :), (congrArg State.mem hc :), (congrArg State.txLen hc :),
    (congrArg (fun u => u.chan.sent) hc :)⟩

end Sys2Proof.Machine
end

section
/-! SUPPORT. The receive loop and CHECK over a run of cycles (44_reassembly.md R122, R123), against the transaction
level (R102 to R104, R110), and the whole exchange (43_exchange.md R91, 44_reassembly.md R126). -/

namespace Sys2Proof.Machine

/-! ### The transaction level works on the content -/

theorem State.content_takeByte (s : State) (b : Byte) : s.content.takeByte b = (s.takeByte b).content := by
  simp only [State.takeByte, apply_ite State.content]
  rfl

theorem State.content_receive (s : State) (stream : List (Nat × Byte)) :
    s.content.receive stream = (s.receive stream).content := by
  induction stream generalizing s with
  | nil => rfl
  | cons g rest ih =>
    have ht : s.content.timeout = s.timeout := rfl
    rw [State.receive, State.receive, ht]
    cases waitByte s.timeout g with
    | none => rfl
    | some b =>
      simp only [State.content_takeByte, apply_ite State.content, ih]
      rfl

theorem State.content_checkAction (s : State) : s.content.checkAction = s.checkAction.content := by
  simp only [State.checkAction, apply_ite State.content]
  rfl

@[simp] theorem State.popFifo_content (s : State) : s.popFifo.content = s.content := rfl

@[simp] theorem State.enterCheck_content (s : State) : s.enterCheck.content = s.content := rfl

theorem State.takeByte_frame (s : State) (b : Byte) :
    (s.takeByte b).st = s.st ∧ (s.takeByte b).wctr = s.wctr ∧ (s.takeByte b).chan = s.chan ∧
      (s.takeByte b).env = s.env ∧ (s.takeByte b).dir = s.dir := by
  unfold State.takeByte
  split <;> exact ⟨rfl, rfl, rfl, rfl, rfl⟩

/-- The receive loop does not touch the channel or the line direction (R102). -/
theorem State.receive_frame (s : State) (stream : List (Nat × Byte)) :
    (s.receive stream).chan = s.chan ∧ (s.receive stream).dir = s.dir := by
  induction stream generalizing s with
  | nil => exact ⟨rfl, rfl⟩
  | cons g rest ih =>
    rw [State.receive]
    cases waitByte s.timeout g with
    | none => exact ⟨rfl, rfl⟩
    | some b =>
      obtain ⟨-, -, hc, -, hd⟩ := s.takeByte_frame b
      dsimp only
      split
      · exact ⟨hc, hd⟩
      · rw [← hc, ← hd]
        exact ih _

/-- A classification ends the command and does not touch the channel or the line direction (R74, R110). -/
theorem State.checkAction_frame (s : State) :
    s.checkAction.st = .idle ∧ s.checkAction.chan = s.chan ∧ s.checkAction.dir = s.dir := by
  rcases s.checkAction_cases with ⟨-, h⟩ | ⟨-, -, h⟩ | ⟨-, -, h⟩ <;> rw [h] <;> exact ⟨rfl, rfl, rfl⟩

/-- A byte in time is taken, and the loop ends when it completes the frame (R102, R103). -/
theorem State.receive_inTime {s : State} {gap : Nat} (hg : gap ≤ s.timeout) (b : Byte) (rest : List (Nat × Byte)) :
    s.receive ((gap, b) :: rest) =
      if (s.takeByte b).pos = (s.takeByte b).exp then s.takeByte b else (s.takeByte b).receive rest := by
  simp [State.receive, waitByte, hg]

/-- A byte that comes late, or never, ends the loop by a timeout (R103). -/
theorem State.receive_late {s : State} {stream : List (Nat × Byte)} (h : ∀ g ∈ stream.head?, s.timeout < g.1) :
    s.receive stream = { s with tmo := true } := by
  cases stream with
  | nil => rfl
  | cons g rest => simp [State.receive, waitByte, Nat.not_le.2 (h g rfl)]

/-! ### The stream a waiting loop has ahead -/

/-- The timed stream ahead of a loop whose wait began in cycle `start` and has counted `wctr` cycles: the queued bytes
are visible in the present cycle, and `arr` is what arrives from it on. -/
def State.upcoming (s : State) (start : Nat) (arr : List (List Byte)) : List (Nat × Byte) :=
  gapsOf start (s.chan.fifo.map (fun b => (start + s.wctr, b)) ++ deliveriesOf (start + s.wctr) arr)

theorem State.upcoming_of {s : State} {q : List Byte} {w : Nat} (hq : s.chan.fifo = q) (hw : s.wctr = w) (start : Nat)
    (arr : List (List Byte)) :
    s.upcoming start arr = gapsOf start (q.map (fun b => (start + w, b)) ++ deliveriesOf (start + w) arr) := by
  rw [State.upcoming, hq, hw]

/-- A byte visible in this cycle has waited for `wctr` cycles; the wait for the next one begins in the next cycle
(R103, R104). -/
theorem State.upcoming_byte {s : State} {a : List Byte} {b : Byte} {q : List Byte} (h : s.chan.fifo ++ a = b :: q)
    (start : Nat) (arr : List (List Byte)) :
    s.upcoming start (a :: arr) =
      (s.wctr, b) :: gapsOf (start + s.wctr + 1)
        (q.map (fun b => (start + s.wctr + 1, b)) ++ deliveriesOf (start + s.wctr + 1) arr) := by
  rw [State.upcoming, deliveriesOf_cons, ← List.append_assoc, ← List.map_append, h, List.map_cons, List.cons_append,
    gapsOf_cons, Nat.add_sub_cancel_left, Nat.max_eq_right (Nat.le_add_right _ _),
    gapsOf_queued (Nat.le_succ _) (Nat.le_refl _)]

/-- In a cycle without a byte, the stream ahead is what arrives from the next cycle on. -/
theorem State.upcoming_empty {s : State} {a : List Byte} (h : s.chan.fifo ++ a = []) (start : Nat)
    (arr : List (List Byte)) : s.upcoming start (a :: arr) = gapsOf start (deliveriesOf (start + s.wctr + 1) arr) := by
  rw [State.upcoming, deliveriesOf_cons, ← List.append_assoc, ← List.map_append, h]
  rfl

/-- A byte that arrives later than `k` cycles from now has a gap above `k`. -/
theorem lt_head_gapsOf (start k : Nat) (arr : List (List Byte)) :
    ∀ g ∈ (gapsOf start (deliveriesOf (start + k + 1) arr)).head?, k < g.1 := by
  cases h : deliveriesOf (start + k + 1) arr with
  | nil => simp
  | cons g rest =>
    have hle : start + k + 1 ≤ g.1 := le_of_mem_deliveriesOf (h ▸ List.mem_cons_self)
    simp only [gapsOf_cons, List.head?_cons, Option.mem_some_iff, forall_eq']
    omega

/-- The deliveries `arr` end in a silence that outlasts a loop which has `queued` bytes to take and has waited for
`waited` cycles: every byte may take a cycle of it, and then the wait runs to its end. -/
def EndsInSilence (timeout waited queued : Nat) (arr : List (List Byte)) : Prop :=
  ∃ front n, arr = front ++ List.replicate n [] ∧
    (queued + front.flatten.length + timeout + 1 ≤ n ∨
      queued + front.flatten.length = 0 ∧ timeout + 1 ≤ n + waited)

/-- Where nothing is ahead any more, the wait is over. -/
theorem EndsInSilence.nil {timeout waited queued : Nat} (h : EndsInSilence timeout waited queued []) :
    timeout < waited := by
  obtain ⟨front, n, he, hn⟩ := h
  obtain ⟨rfl, hrep⟩ := List.append_eq_nil_iff.1 he.symm
  obtain rfl : n = 0 := by simpa using hrep
  omega

/-- A cycle with a byte takes it, and the wait begins again; a cycle without one is a cycle of the wait. -/
theorem EndsInSilence.tail {timeout waited queued : Nat} {a : List Byte} {arr : List (List Byte)}
    (h : EndsInSilence timeout waited queued (a :: arr)) :
    (∀ left, queued + a.length = left + 1 → EndsInSilence timeout 0 left arr) ∧
      (queued + a.length = 0 → EndsInSilence timeout (waited + 1) 0 arr) := by
  obtain ⟨front, n, he, hn⟩ := h
  rcases List.cons_eq_append_iff.1 he with ⟨rfl, hrep⟩ | ⟨front, rfl, rfl⟩
  · cases n with
    | zero => cases hrep
    | succ n =>
      obtain ⟨rfl, rfl⟩ := List.cons.inj (hrep.symm.trans List.replicate_succ)
      simp only [List.flatten_nil, List.length_nil] at hn ⊢
      exact ⟨fun left hl => ⟨[], n, rfl, .inl (by simp; omega)⟩, fun hl => ⟨[], n, rfl, .inr ⟨rfl, by omega⟩⟩⟩
  · simp only [List.flatten_cons, List.length_append] at hn
    exact ⟨fun left hl => ⟨front, n, rfl, by omega⟩, fun hl => ⟨front, n, rfl, by omega⟩⟩

/-! ### The receive loop over a run -/

/-- An RX cycle with a byte at the head of the FIFO takes it as the transaction level does (R102, R122). -/
theorem State.rxCycle_byte {s : State} {b : Byte} {q : List Byte} (hne : s.pos ≠ s.exp) (hf : s.chan.fifo = b :: q) :
    s.rxCycle =
      if (s.popFifo.takeByte b).pos = (s.popFifo.takeByte b).exp then (s.popFifo.takeByte b).enterCheck
      else s.popFifo.takeByte b := by
  have hpop : s.popFifo.discards b = s.discards b ∧ s.popFifo.expAfter b = s.expAfter b := ⟨rfl, rfl⟩
  cases hd : s.discards b
  · simp [State.rxCycle, State.takeByte, hf, hpop, hd]
  · simp [State.rxCycle, State.takeByte, hf, hpop, hd, hne]

theorem State.rxCycle_timeout {s : State} (hf : s.chan.fifo = []) (hw : s.wctr = s.timeout) :
    s.rxCycle = ({ s with tmo := true } : State).enterCheck := by
  simp [State.rxCycle, hf, hw]

theorem State.rxCycle_tick {s : State} (hf : s.chan.fifo = []) (hw : s.wctr ≠ s.timeout) :
    s.rxCycle = { s with wctr := s.wctr + 1 } := by
  simp [State.rxCycle, hf, hw]

/-- The loop is open and its wait has not run out (R102, R103). -/
structure State.Waiting (s : State) : Prop where
  st : s.st = .rx
  incomplete : s.pos ≠ s.exp
  inTime : s.wctr ≤ s.timeout

/-- The deliveries `arr` end in a silence that outlasts the loop of `s`. -/
def State.SilenceAfter (s : State) (arr : List (List Byte)) : Prop :=
  EndsInSilence s.timeout s.wctr s.chan.fifo.length arr

/-- The step from `s` to `t` ends the loop with the content that the transaction level leaves. -/
structure EndsLoop (s t : State) : Prop where
  st : t.st = .check
  lat : t.lat = s.drawLat
  content : ∀ start arr, t.content = (s.receive (s.upcoming start (s.input.arrivals :: arr))).content

/-- The step from `s` to `t` goes on with the loop, and the transaction level goes on likewise. -/
structure ContinuesLoop (s t : State) : Prop where
  waiting : t.Waiting
  silence : ∀ arr, s.SilenceAfter (s.input.arrivals :: arr) → t.SilenceAfter arr
  content : ∀ start, ∃ start', ∀ arr,
    (s.receive (s.upcoming start (s.input.arrivals :: arr))).content = (t.receive (t.upcoming start' arr)).content

/-- States of equal content receive alike. -/
theorem State.receive_content_congr {s t : State} (h : s.content = t.content) {l l' : List (Nat × Byte)}
    (hl : l = l') : (s.receive l).content = (t.receive l').content := by
  rw [← State.content_receive, h, hl, State.content_receive]

/-- Taking a byte from the FIFO of the state held is taking it at the transaction level. -/
theorem State.held_takeByte_content (s : State) (b : Byte) :
    (s.beginCycle.popFifo.takeByte b).content = (s.takeByte b).content := by
  rw [← State.content_takeByte, State.popFifo_content, State.beginCycle_content, State.content_takeByte]

/-- An RX cycle with a byte (R102, R122). -/
theorem State.Waiting.rxCycle_byte {s : State} (hw : s.Waiting) {b : Byte} {q : List Byte}
    (hf : s.chan.fifo ++ s.input.arrivals = b :: q) :
    EndsLoop s (s.beginCycle.endCycle s.beginCycle.rxCycle) ∨
      ContinuesLoop s (s.beginCycle.endCycle s.beginCycle.rxCycle) := by
  obtain ⟨hs, hne, hin⟩ := hw
  have hcont := s.held_takeByte_content b
  obtain ⟨hst, hwctr, hchan, henv, -⟩ := s.beginCycle.popFifo.takeByte_frame b
  rw [State.rxCycle_byte (s := s.beginCycle) hne hf]
  generalize s.beginCycle.popFifo.takeByte b = u at *
  have hpos : u.pos = (s.takeByte b).pos := (congrArg State.pos hcont :)
  have hexp : u.exp = (s.takeByte b).exp := (congrArg State.exp hcont :)
  by_cases hend : (s.takeByte b).pos = (s.takeByte b).exp
  · left
    rw [if_pos (hpos.trans (hend.trans hexp.symm))]
    have hlat : u.drawLat = s.drawLat := by rw [State.drawLat, State.input, henv]; rfl
    refine ⟨rfl, hlat, fun start arr => ?_⟩
    rw [State.upcoming_byte hf, State.receive_inTime hin, if_pos hend]
    exact hcont
  · right
    have hopen : u.pos ≠ u.exp := fun h => hend (hpos.symm.trans (h.trans hexp))
    have hfifo : u.chan.fifo = q := by rw [hchan, State.popFifo_chan, State.beginCycle_fifo, hf]; rfl
    have hwctr0 : u.wctr = 0 := hwctr
    have htime : u.timeout = s.timeout := by rw [State.timeout, henv]; rfl
    rw [if_neg hopen]
    refine ⟨⟨hst.trans hs, hopen, hwctr0 ▸ Nat.zero_le _⟩, fun arr hq => ?_,
      fun start => ⟨start + s.wctr + 1, fun arr => ?_⟩⟩
    · have hleft := hq.tail.1 q.length (by rw [← List.length_append, hf]; rfl)
      rwa [← htime, ← hwctr0, ← hfifo] at hleft
    · rw [State.upcoming_byte hf, State.receive_inTime hin, if_neg hend]
      exact State.receive_content_congr (t := s.beginCycle.endCycle u) hcont.symm
        (State.upcoming_of hfifo hwctr0 (start + s.wctr + 1) arr).symm

/-- An RX cycle without a byte (R103, R122). -/
theorem State.Waiting.rxCycle_empty {s : State} (hw : s.Waiting) (hf : s.chan.fifo ++ s.input.arrivals = []) :
    EndsLoop s (s.beginCycle.endCycle s.beginCycle.rxCycle) ∨
      ContinuesLoop s (s.beginCycle.endCycle s.beginCycle.rxCycle) := by
  obtain ⟨hs, hne, hin⟩ := hw
  by_cases htime : s.wctr = s.timeout
  · left
    rw [State.rxCycle_timeout (s := s.beginCycle) hf htime]
    refine ⟨rfl, rfl, fun start arr => ?_⟩
    rw [State.upcoming_empty hf, State.receive_late (htime ▸ lt_head_gapsOf start s.wctr arr)]
    exact congrArg (fun u : State => { u with tmo := true }) s.beginCycle_content
  · right
    rw [State.rxCycle_tick (s := s.beginCycle) hf htime]
    have hfifo : s.beginCycle.chan.fifo = [] := hf
    refine ⟨⟨hs, hne, Nat.lt_of_le_of_ne hin htime⟩, fun arr hq => ?_, fun start => ⟨start, fun arr => ?_⟩⟩
    · have hwait := hq.tail.2 (by rw [← List.length_append, hf]; rfl)
      show EndsInSilence s.timeout (s.wctr + 1) s.beginCycle.chan.fifo.length arr
      rwa [hfifo]
    · rw [State.upcoming_empty hf]
      apply State.receive_content_congr
      · exact s.beginCycle_content.symm
      · refine Eq.symm (State.upcoming_of (q := []) (w := s.wctr + 1) ?_ rfl start arr)
        exact hfifo

/-- Every RX cycle of an open loop ends it or goes on with it as the transaction level does. -/
theorem State.Waiting.rxCycle_loop {s : State} (hw : s.Waiting) :
    EndsLoop s (s.beginCycle.endCycle s.beginCycle.rxCycle) ∨
      ContinuesLoop s (s.beginCycle.endCycle s.beginCycle.rxCycle) := by
  cases hf : s.chan.fifo ++ s.input.arrivals with
  | cons b q => exact hw.rxCycle_byte hf
  | nil => exact hw.rxCycle_empty hf

/-- A step in RX is the RX cycle of the state held (R120). -/
theorem step_rx {s : State} (hs : s.st = .rx) (hr : s.input.rst = false) :
    step s = .next (s.beginCycle.endCycle s.beginCycle.rxCycle) := by
  rw [step_busy hr (by simp [hs]), State.blockCycle_rx (by exact hs)]

/-- Over any deliveries that end in silence, the receive loop comes to CHECK with the content that the transaction level
leaves (R102, R103, R122, R126). -/
theorem runCycles_rx (ins : List CycleInput) {rest : List CycleInput} {s : State} (start : Nat) (hw : s.Waiting)
    (hin : s.env.inputs = ins ++ rest) (hr : ∀ i ∈ ins, i.rst = false) (hq : s.SilenceAfter (ins.map (·.arrivals))) :
    ∃ n t, runCycles n s = .next t ∧ n ≤ ins.length ∧ t.st = .check ∧ (∃ i ∈ ins, t.lat = i.extraLat + 1) ∧
      t.chan.unsent <:+ s.chan.unsent ∧
      t.content = (s.receive (s.upcoming start (ins.map (·.arrivals)))).content := by
  induction ins generalizing s start with
  | nil => exact absurd hq.nil (Nat.not_lt.2 hw.inTime)
  | cons i ins ih =>
    obtain rfl := State.input_eq hin
    have hr0 : s.input.rst = false := hr _ List.mem_cons_self
    have hstep := step_rx hw.st hr0
    have hsuf := step_unsent_suffix hr0 (by simp [hw.st]) hstep
    rcases hw.rxCycle_loop with hend | hgo
    · exact ⟨1, _, runCycles_succ (n := 0) hstep, by simp, hend.st, ⟨_, List.mem_cons_self, hend.lat⟩, hsuf,
        hend.content start _⟩
    · obtain ⟨start', hcont⟩ := hgo.content start
      obtain ⟨n, t, ht, hn, hst, ⟨j, hj, hlat⟩, hsuf', hc⟩ := ih start' hgo.waiting
        (by rw [step_inputs hstep, hin]; rfl) (fun j hj => hr j (List.mem_cons_of_mem _ hj)) (hgo.silence _ hq)
      exact ⟨n + 1, t, by rw [runCycles_succ hstep, ht], Nat.succ_le_succ hn, hst, ⟨j, List.mem_cons_of_mem _ hj, hlat⟩,
        hsuf'.trans hsuf, hc.trans (hcont _).symm⟩

/-! ### CHECK over a run -/

/-- A CHECK cycle with latency left counts it down (R123). -/
theorem step_check_count {s : State} (hs : s.st = .check) (hr : s.input.rst = false) (hl : 1 < s.lat) :
    ∃ t, step s = .next t ∧ t.st = .check ∧ t.lat = s.lat - 1 ∧ t.content = s.content := by
  refine ⟨_, step_busy hr (by simp [hs]), ?_⟩
  rw [State.blockCycle_check (by exact hs), State.checkCycle_count (s := s.beginCycle) hl]
  exact ⟨hs, rfl, s.beginCycle_content⟩

/-- The last CHECK cycle classifies (R110, R123). -/
theorem step_check_act {s : State} (hs : s.st = .check) (hr : s.input.rst = false) (hl : s.lat ≤ 1) :
    ∃ t, step s = .next t ∧ t.st = .idle ∧ t.content = s.checkAction.content := by
  refine ⟨_, step_busy hr (by simp [hs]), ?_⟩
  rw [State.blockCycle_check (by exact hs), State.checkCycle_act (s := s.beginCycle) hl]
  refine ⟨s.beginCycle.checkAction_frame.1, ?_⟩
  rw [State.endCycle_content, ← State.content_checkAction, State.beginCycle_content, State.content_checkAction]

/-- CHECK counts its latency down and then classifies. -/
theorem runCycles_check (ins : List CycleInput) {rest : List CycleInput} {s : State} (hne : ins ≠ [])
    (hs : s.st = .check) (hl : s.lat = ins.length) (hin : s.env.inputs = ins ++ rest) (hr : ∀ i ∈ ins, i.rst = false) :
    ∃ t, runCycles ins.length s = .next t ∧ t.st = .idle ∧ t.chan.unsent <:+ s.chan.unsent ∧
      t.content = s.checkAction.content := by
  induction ins generalizing s with
  | nil => exact absurd rfl hne
  | cons i ins ih =>
    have hr0 : s.input.rst = false := State.input_eq hin ▸ hr i List.mem_cons_self
    rw [List.length_cons] at hl ⊢
    by_cases hnil : ins = []
    · subst hnil
      obtain ⟨t, ht, hidle, hc⟩ := step_check_act hs hr0 (Nat.le_of_eq hl)
      exact ⟨t, runCycles_succ ht, hidle, step_unsent_suffix hr0 (by simp [hs]) ht, hc⟩
    · obtain ⟨u, hu, hst, hlat, hcu⟩ := step_check_count hs hr0 (by have := List.length_pos_of_ne_nil hnil; omega)
      obtain ⟨t, ht, hidle, hsuf, hc⟩ := ih hnil hst (by rw [hlat, hl]; rfl) (by rw [step_inputs hu, hin]; rfl)
        fun j hj => hr j (List.mem_cons_of_mem i hj)
      refine ⟨t, by rw [runCycles_succ hu, ht], hidle, hsuf.trans (step_unsent_suffix hr0 (by simp [hs]) hu), ?_⟩
      rw [hc, ← State.content_checkAction, hcu, State.content_checkAction]

/-- From the first RX cycle on, over any deliveries that end in silence, the cycle level ends as the transaction level
does (R126): `arr` is what arrives in each cycle, behind whatever the FIFO holds at the start. -/
theorem runCycles_receive {s : State} {arr : List (List Byte)} {ins rest : List CycleInput} (hs : s.st = .rx)
    (hne : s.pos ≠ s.exp) (hw : s.wctr = 0) (hin : s.env.inputs = ins ++ rest)
    (harr : ins.map (·.arrivals) =
      arr ++ List.replicate (s.chan.fifo.length + arr.flatten.length + s.timeout + 1) [])
    (hr : ∀ i ∈ s.env.inputs, i.rst = false) (hlat : ∀ i ∈ ins, i.extraLat + 1 ≤ rest.length) :
    ∃ n t, runCycles n s = .next t ∧ t.st = .idle ∧ t.chan.unsent <:+ s.chan.unsent ∧
      t.content =
        (s.receive (gapsOf 0 (s.chan.fifo.map (fun b => (0, b)) ++ deliveriesOf 0 arr))).checkAction.content := by
  have hq : s.SilenceAfter (ins.map (·.arrivals)) := ⟨arr, _, harr, .inl (Nat.le_refl _)⟩
  obtain ⟨n, t, ht, hn, hst, ⟨i, hi, hl⟩, hsuf, hc⟩ := runCycles_rx ins 0 ⟨hs, hne, hw ▸ Nat.zero_le _⟩ hin
    (fun i hi => hr i (by rw [hin]; exact List.mem_append_left _ hi)) hq
  have hleft : t.env.inputs = (ins ++ rest).drop n := by rw [runCycles_inputs ht, hin]
  have hlen : i.extraLat + 1 ≤ t.env.inputs.length := by
    rw [hleft, List.drop_append_of_le_length hn, List.length_append]
    exact le_add_left (hlat i hi)
  have htake : (t.env.inputs.take (i.extraLat + 1)).length = i.extraLat + 1 := List.length_take_of_le hlen
  obtain ⟨u, hu, hidle, hsuf', hcu⟩ := runCycles_check (t.env.inputs.take (i.extraLat + 1))
    (List.ne_nil_of_length_pos (by omega)) hst (by rw [hl, htake]) (List.take_append_drop _ _).symm
    fun j hj => hr j (List.mem_of_mem_drop (runCycles_inputs ht ▸ List.mem_of_mem_take hj))
  refine ⟨_, u, by rw [runCycles_add _ ht, hu], hidle, hsuf'.trans hsuf, ?_⟩
  rw [hcu, ← State.content_checkAction, hc, State.content_checkAction, State.upcoming_of rfl hw, harr,
    deliveriesOf_silence]

/-! ### The whole exchange -/

theorem State.actXStart_content {s : State} (h : 2 ≤ s.txCount) :
    s.actXStart.content = { (s.content.stampTx s.txCount (crcBody s.txFrame)).clearResult with dir := true } := by
  rw [State.actXStart_ok h]
  rfl

/-- The last STAGE cycle of PH_XSTART, as a step (R92). -/
theorem step_xStart {s : State} (hs : s.st = .stage) (hph : s.phase = .xStart) (hl : s.lat ≤ 1) (h2 : 2 ≤ s.txCount)
    (hr : s.input.rst = false) :
    ∃ t, step s = .next t ∧ t.st = .tx ∧ t.txi = 0x00#8 ∧ t.content = s.actXStart.content := by
  have hcont : s.beginCycle.actXStart.content = s.actXStart.content := by
    rw [State.actXStart_content h2, State.actXStart_content (s := s.beginCycle) h2, State.beginCycle_content]
    rfl
  refine ⟨_, step_busy hr (by simp [hs]), ?_⟩
  rw [State.blockCycle_stage (by exact hs), State.stageCycle_act (s := s.beginCycle) hl, State.action,
    State.beginCycle_phase, hph]
  rw [State.actXStart_ok (s := s.beginCycle) h2] at hcont ⊢
  exact ⟨rfl, rfl, hcont⟩

/-- A DRAIN cycle in which the rest of the line leaves it turns the line round (R95). -/
theorem step_drain_turns {s : State} (hs : s.st = .drain) (hr : s.input.rst = false)
    (hleft : s.chan.unsent.length ≤ s.input.left) :
    ∃ t, step s = .next t ∧ t.st = .rx ∧ t.wctr = 0 ∧ t.chan.fifo = [] ∧ t.chan.unsent = [] ∧
      t.content = { s.content with dir := false } := by
  have hempty : s.beginCycle.chan.unsent = [] := List.drop_eq_nil_of_le hleft
  refine ⟨_, step_busy hr (by simp [hs]), ?_⟩
  rw [State.blockCycle_drain (by exact hs), State.drainCycle_turns hempty, ← s.beginCycle_content]
  exact ⟨rfl, rfl, rfl, hempty, rfl⟩

/-- The transaction level transmits the whole frame and turns the line round (R91, R94, R95). -/
theorem State.transmit_content (s : State) :
    s.transmit.content = { s.content.carried s.txFrame with dir := false } := by
  simp [State.content, State.carried, State.line, State.transmit]

/-- From PH_XSTART on, over a ready channel that empties in the first DRAIN cycle, the cycle level comes to the first RX
cycle with the content that the transaction level leaves, nothing in the FIFO and nothing on the line (R91 to R95). -/
theorem runCycles_transmit {s : State} {x d : CycleInput} {txs tail : List CycleInput} (hs : s.st = .stage)
    (hph : s.phase = .xStart) (hl : s.lat ≤ 1) (h2 : 2 ≤ s.txCount) (hin : s.env.inputs = x :: (txs ++ d :: tail))
    (htxs : txs.length = s.txCount) (hready : ∀ i ∈ txs, i.txReady = true)
    (hd : s.chan.unsent.length + s.txCount ≤ d.left) (hr : ∀ i ∈ s.env.inputs, i.rst = false) :
    ∃ n t, runCycles n s = .next t ∧ t.env.inputs = tail ∧ t.st = .rx ∧ t.wctr = 0 ∧ t.chan.fifo = [] ∧
      t.chan.unsent = [] ∧ t.content = s.actXStart.transmit.content := by
  rw [hin] at hr
  have hr0 : s.input.rst = false := State.input_eq hin ▸ hr x List.mem_cons_self
  obtain ⟨u, hu, hust, htxi, hcu⟩ := step_xStart hs hph hl h2 hr0
  have huin : u.env.inputs = txs ++ d :: tail := by rw [step_inputs hu, hin]; rfl
  have hsuf := step_unsent_suffix hr0 (by simp [hs]) hu
  have hcount : u.txCount = s.txCount := by
    have h : u.txCount = s.actXStart.txCount := (congrArg State.txCount hcu :)
    rw [h, State.actXStart_ok h2]
    rfl
  have hframe : u.txFrame = s.actXStart.txFrame := (congrArg State.txFrame hcu :)
  obtain ⟨v, hv, hvst, hcv, hline⟩ := runCycles_tx txs (List.ne_nil_of_length_pos (by omega)) hust huin
    (by rw [htxi, htxs, hcount]; exact Nat.zero_add _)
    fun i hi => ⟨hr i (List.mem_cons_of_mem _ (List.mem_append_left _ hi)), hready i hi⟩
  have hvin : v.env.inputs = d :: tail := by rw [runCycles_inputs hv, huin, List.drop_left]
  have hvd := State.input_eq hvin
  have hempties : v.chan.unsent.length ≤ v.input.left := by
    have := hsuf.length_le
    rw [hvd]
    omega
  obtain ⟨t, ht, htst, hw, hfifo, hunsent, hct⟩ := step_drain_turns hvst (hvd ▸ hr d (by simp)) hempties
  refine ⟨txs.length + 1 + 1, t, ?_, by rw [step_inputs ht, hvin]; rfl, htst, hw, hfifo, hunsent, ?_⟩
  · rw [runCycles_succ hu, runCycles_add 1 hv, runCycles_succ ht]
    rfl
  · rw [htxi, htxs, ← hcount] at hcv
    rw [hct, hcv, State.transmit_content, ← hcu, ← hframe]
    rfl

/-- With a frame of at least two bytes, EXCHANGE is the transmission, the receive loop and the classification (R91). -/
theorem State.exchangeLevel_ok {s : State} (h : 2 ≤ s.txCount) (stream : List (Nat × Byte)) :
    s.exchangeLevel stream = (s.actXStart.transmit.receive stream).checkAction :=
  if_pos ((s.txLenOk_iff).2 h)

/-- The transaction level begins to receive with an open loop and DIR 0, behind a line that has carried the stamped
frame (R92, R95). -/
theorem State.transmit_start {s : State} (h : 2 ≤ s.txCount) :
    s.actXStart.transmit.pos ≠ s.actXStart.transmit.exp ∧ s.actXStart.transmit.timeout = s.timeout ∧
      s.actXStart.transmit.dir = false ∧
      s.actXStart.transmit.line = s.chan.sent ++ s.chan.unsent ++ stamped (s.txBytes 0 (s.txCount - 2)) := by
  have hline : s.actXStart.transmit.line = s.actXStart.line ++ s.actXStart.txFrame := List.append_nil _
  rw [hline, State.actXStart_txFrame h, State.actXStart_ok h]
  exact ⟨(by decide : 0#9 ≠ 5#9), rfl, rfl, rfl⟩

/-- The receive loop and the classification leave the line direction and the line as they are. -/
theorem State.receive_checkAction_frame (s : State) (stream : List (Nat × Byte)) :
    (s.receive stream).checkAction.dir = s.dir ∧ (s.receive stream).checkAction.line = s.line := by
  obtain ⟨hc, hd⟩ := s.receive_frame stream
  obtain ⟨-, hc', hd'⟩ := (s.receive stream).checkAction_frame
  exact ⟨hd'.trans hd, by rw [State.line, State.line, hc', hc]⟩

/-- Settles O38: PH_XSTART, the frame and the turn of the line, and then the receive run, leave the content that the
transaction level has there. -/
theorem exchangeAgreesWithTransactionLevel : Obligations.ExchangeAgreesWithTransactionLevel := by
  intro s arr stream x d txs ins rest hs hph _ hl h2 hin htxs hready hd harr hstream hr hlat
  obtain ⟨n, u, hu, huin, hust, hw, hfifo, hunsent, hcu⟩ :=
    runCycles_transmit hs hph (Nat.le_of_eq hl) h2 hin htxs hready hd hr
  obtain ⟨hopen, htime, hdir, hline⟩ := State.transmit_start h2
  have hutime : u.timeout = s.timeout := (congrArg State.timeout hcu :).trans htime
  have huopen : u.pos ≠ u.exp := fun h =>
    hopen ((congrArg State.pos hcu.symm :).trans (h.trans (congrArg State.exp hcu :)))
  obtain ⟨m, t, ht, hidle, hsuf, hct⟩ := runCycles_receive (arr := arr) hust huopen hw huin
    (by simpa [hfifo, hutime] using harr)
    (fun i hi => hr i (List.mem_of_mem_drop (runCycles_inputs hu ▸ hi))) hlat
  have hcontent : t.content = (s.exchangeLevel stream).content := by
    rw [hct, State.exchangeLevel_ok h2, hfifo, hstream, ← State.content_checkAction, ← State.content_checkAction]
    exact congrArg State.checkAction (State.receive_content_congr hcu rfl)
  obtain ⟨hrdir, hrline⟩ := s.actXStart.transmit.receive_checkAction_frame stream
  rw [← State.exchangeLevel_ok h2] at hrdir hrline
  have htunsent : t.chan.unsent = [] := List.suffix_nil.1 (hunsent ▸ hsuf)
  have hsent : t.chan.sent = t.line := by rw [State.line, htunsent, List.append_nil]
  refine ⟨n + m, t, by rw [runCycles_add m hu, ht], hidle, ?_, ?_, ?_⟩
  · exact (congrArg State.dir hcontent :).trans (hrdir.trans hdir)
  · rw [hsent, ← hline, ← hrline]
    exact (congrArg (fun u => u.chan.sent) hcontent :)
  · exact ⟨(congrArg State.status hcontent :), (congrArg State.mem hcontent :), (congrArg State.pos hcontent :),
      (congrArg State.rxFc hcontent :), (congrArg State.cls hcontent :), (congrArg State.rxPayloadOff hcontent :),
      (congrArg State.rxPayloadLen hcontent :), (congrArg State.crcCalc hcontent :),
      (congrArg State.crcRecv hcontent :), (congrArg State.crcMatch hcontent :)⟩

end Sys2Proof.Machine
end

section
/-! SUPPORT. One cycle of the receive loop and of CHECK (44_reassembly.md R105 to R113, R122, R123): a byte discarded, a
byte accepted, no byte, and the classification in the order of its tests. -/

namespace Sys2Proof.Machine

/-! ### An RX cycle -/

theorem State.discards_iff (s : State) (b : Byte) : s.discards b = true ↔ s.pos = 0#9 ∧ b ≠ s.unitId := by
  simp [State.discards]

theorem State.not_discards_iff (s : State) (b : Byte) : s.discards b = false ↔ s.pos ≠ 0#9 ∨ b = s.unitId := by
  rw [Bool.eq_false_iff, ne_eq, State.discards_iff, Decidable.not_and_iff_not_or_not, not_not]

/-- A byte at position 0 that is not the unit id is only popped (R105). -/
theorem State.rxCycle_discard {s : State} {b : Byte} {q : List Byte} (hf : s.chan.fifo = b :: q) (hp : s.pos = 0#9)
    (hb : b ≠ s.unitId) : s.rxCycle = s.popFifo := by
  rw [State.rxCycle, hf]
  exact if_pos ((s.discards_iff b).2 ⟨hp, hb⟩)

/-- Any other byte is popped and stored, and moves the block to CHECK when it completes the frame (R106, R122). -/
theorem State.rxCycle_accept {s : State} {b : Byte} {q : List Byte} (hf : s.chan.fifo = b :: q)
    (hd : s.discards b = false) :
    s.rxCycle =
      if s.pos + 1 = s.expAfter b then (s.popFifo.storeByte b).enterCheck else s.popFifo.storeByte b := by
  simp [State.rxCycle, hf, hd]

/-- Settles O26: the cycle is the pop alone. -/
theorem foreignByteIsDiscarded : Obligations.ForeignByteIsDiscarded := by
  intro i s b rest hi hs hf hp hb
  rw [exec_rx hi hs, State.rxCycle_discard hf hp hb, State.popFifo, hf]
  rfl

/-- Settles O28: the two cases of a cycle without a byte. -/
theorem emptyReceiveCycleCountsOrTimesOut : Obligations.EmptyReceiveCycleCountsOrTimesOut := by
  intro i s hi hs hf
  rw [exec_rx hi hs]
  exact ⟨fun hw => congrArg _ (State.rxCycle_tick hf hw), fun hw => congrArg _ (State.rxCycle_timeout hf hw)⟩

/-! ### What an accepted byte sets -/

/-- The function code at position 1 selects the class and the expected length (R63, R107). -/
theorem expOf_of_classOf (old : BitVec 9) (fc : Byte) :
    (classOf fc = .read → expOf old fc = old) ∧ (classOf fc = .wack → expOf old fc = 8#9) ∧
      (classOf fc = .err → expOf old fc = 6#9) := by
  refine ⟨fun h => ?_, fun h => ?_, fun h => ?_⟩ <;> simp [expOf, h, wackLen, floorLen]

/-- The byte at position 1 becomes `RX_FC`; the three kinds of function code (R107). -/
theorem State.storeByte_functionCode {s : State} (hp : s.pos = 1#9) (b : Byte) :
    (s.storeByte b).rxFc = b ∧
      (b = fcRead → (s.storeByte b).cls = .read ∧ (s.storeByte b).exp = s.exp) ∧
      (b = fcWriteSingle ∨ b = fcWriteMulti → (s.storeByte b).cls = .wack ∧ (s.storeByte b).exp = 8#9) ∧
      (b ≠ fcRead → b ≠ fcWriteSingle → b ≠ fcWriteMulti →
        (s.storeByte b).cls = .err ∧ (s.storeByte b).exp = 6#9) := by
  have hcls : (s.storeByte b).cls = classOf b := if_pos hp
  have hexp : (s.storeByte b).exp = expOf s.exp b := if_pos hp
  obtain ⟨hread, hwack, herr⟩ := expOf_of_classOf s.exp b
  rw [hcls, hexp]
  refine ⟨if_pos hp, fun hb => ?_, fun hb => ?_, fun h3 h6 h10 => ?_⟩
  · have hc := classOf_eq_read.2 hb
    exact ⟨hc, hread hc⟩
  · have hc := classOf_eq_wack.2 hb
    exact ⟨hc, hwack hc⟩
  · have hc := classOf_eq_err.2 ⟨h3, h6, h10⟩
    exact ⟨hc, herr hc⟩

/-- At any other position the function code and the class stay (R107). -/
theorem State.storeByte_otherPosition {s : State} (hp : s.pos ≠ 1#9) (b : Byte) :
    (s.storeByte b).rxFc = s.rxFc ∧ (s.storeByte b).cls = s.cls :=
  ⟨if_neg hp, if_neg hp⟩

/-- The byte count of a read response, at position 2, sets the expected length (R108). -/
theorem State.storeByte_byteCount {s : State} (hp : s.pos = 2#9) (hc : s.cls = .read) (b : Byte) :
    (s.storeByte b).exp.toNat = b.toNat + 5 := by
  have hexp : (s.storeByte b).exp = b.setWidth 9 + BitVec.ofNat 9 floorLen := by
    simp [State.expAfter, hp, hc]
  rw [hexp, floorLen]
  bv_omega

/-- No other byte changes the expected length (R107, R108). -/
theorem State.storeByte_exp_otherwise {s : State} (h1 : s.pos ≠ 1#9) (h2 : ¬ (s.pos = 2#9 ∧ s.cls = .read)) (b : Byte) :
    (s.storeByte b).exp = s.exp := by
  rw [State.storeByte_exp, State.expAfter, if_neg h1, if_neg h2]

/-- Settles O27: the state is `storeByte` behind the pop, in RX or CHECK by the completed length. -/
theorem acceptedByteIsStoredAndClassified : Obligations.AcceptedByteIsStoredAndClassified := by
  intro i s b rest hi hs hf hb hp
  have hd : s.discards b = false := (s.not_discards_iff b).2 hb
  have hpop : s.popFifo = { s with chan := { s.chan with fifo := rest }, wctr := 0 } := by
    rw [State.popFifo, hf]; rfl
  have hread := s.popFifo.storeByte_rxByte b hp
  have hother := fun a => s.popFifo.storeByte_byteAt_other b (a := a)
  have hfc := fun h => State.storeByte_functionCode (s := s.popFifo) h b
  have hkeep := fun h => State.storeByte_otherPosition (s := s.popFifo) h b
  have hcount := fun h hc => State.storeByte_byteCount (s := s.popFifo) h hc b
  have hexp := fun h1 h2 => State.storeByte_exp_otherwise (s := s.popFifo) h1 h2 b
  rw [exec_rx hi hs, State.rxCycle_accept hf hd]
  by_cases he : s.pos + 1 = s.expAfter b
  · rw [if_pos he]
    refine ⟨_, rfl, ?_, hread, hother, hfc, hkeep, hcount, hexp, fun _ => ⟨rfl, rfl⟩, absurd he⟩
    rw [hpop]; rfl
  · rw [if_neg he]
    refine ⟨_, rfl, ?_, hread, hother, hfc, hkeep, hcount, hexp, (absurd · he), fun _ => ⟨hs, rfl⟩⟩
    rw [hpop]; rfl

/-- Settles O59: reset and a host access leave an idle or a staged block, whose position alone is bounded. -/
theorem lengthInferenceStaysRight : Obligations.LengthInferenceStaysRight := by
  intro s t hi h
  obtain ⟨u, rfl, ⟨-, rfl⟩ | ⟨-, hs, rfl⟩ | ⟨-, -, rfl⟩⟩ := step_edge h
  · exact (State.rxInv_other (.inl rfl)).2 (Nat.zero_le _)
  · show s.beginCycle.hostCycle.rxInv
    obtain ⟨hle, -⟩ := hi
    rcases s.beginCycle.hostCycle_cases with h | ⟨_, _, _, _, _, _, h, -⟩ <;> rw [h]
    · exact (State.rxInv_other (.inr rfl)).2 hle
    · exact (State.rxInv_other (.inl (by exact hs))).2 hle
  · exact s.beginCycle.blockCycle_edge.rxInv hi

/-! ### The classification -/

/-- Where no byte was accepted, the classification is `finish(noResponse)` (R110). -/
theorem State.checkAction_noResponse {s : State} (hp : s.pos = 0#9) : s.checkAction = s.finish .noResponse :=
  if_pos hp

/-- A truncated response is `finish(responseTooShort)` (R110). -/
theorem State.checkAction_truncated {s : State} (hp : s.pos ≠ 0#9) (ht : s.truncated = true) :
    s.checkAction = s.finish .responseTooShort := by
  rw [State.checkAction, if_neg hp, if_pos ht]

/-- Any other response is compared with its CRC (R110). -/
theorem State.checkAction_judge {s : State} (hp : s.pos ≠ 0#9) (ht : s.truncated = false) :
    s.checkAction = s.judge s.cls s.rxFc s.rxFrame := by
  rw [State.checkAction, if_neg hp, if_neg (by simp [ht])]

/-- The loop ended with a full frame or as the short error form (R110, R111). -/
theorem State.not_truncated_iff (s : State) : s.truncated = false ↔ s.tmo = false ∨ s.cls = .err ∧ s.pos = 5#9 := by
  rw [Bool.eq_false_iff, ne_eq, State.truncated_iff, not_and, not_not, ← Bool.not_eq_true, ← imp_iff_not_or]

/-- Settles O31: the three ways of the classification, and the verdict on the frame as one record update. -/
theorem checkClassifiesInOrder : Obligations.CheckClassifiesInOrder := by
  intro i s hi hs hl
  rw [exec_check (isExchangeCommand_format hi) hs hl]
  refine ⟨fun hp => ?_, fun hp ht hne => ?_, fun hlen hc => ?_⟩
  · exact congrArg _ (State.checkAction_noResponse hp)
  · exact congrArg _ (State.checkAction_truncated hp (s.truncated_iff.2 ⟨ht, hne⟩))
  · have hp : s.pos ≠ 0#9 := by
      rintro h
      simp [h] at hlen
    rw [State.checkAction_judge hp (s.not_truncated_iff.2 hc), State.judge_eq, statusCode_if, State.rxFrame_length]
    exact ⟨_, rfl, s.crcBody_rxFrame, s.crcField_rxFrame hlen, rfl⟩

/-- Settles O36: under the receive invariant the frame is complete by its class. -/
theorem checkedFrameIsComplete : Obligations.CheckedFrameIsComplete := by
  intro s hi hs _ hc
  have hcomplete := State.complete_of_rxInv hs hi hc
  refine ⟨hcomplete.five_le, ?_⟩
  rcases hcomplete with ⟨hk, hn⟩ | ⟨hk, hn⟩ | ⟨hk, hn⟩ <;> simp [hk, hn]

/-- Settles O35: behind its own low CRC byte the body has the CRC `0x00 ++ high byte`, which the six-byte frame carries
exactly when the noise is 0x00. -/
theorem errorFrameFollowedByNoise : Obligations.ErrorFrameFollowedByNoise := by
  intro u f c z s h3 h6 h10 hs hl
  have hcrc : crc16 [u, f, c, lo8 (crc16 [u, f, c])] = join 0x00#8 (hi8 (crc16 [u, f, c])) :=
    crc16_append_lo8 [u, f, c]
  have hmatch : join z (hi8 (crc16 [u, f, c])) = crc16 [u, f, c, lo8 (crc16 [u, f, c])] ↔ z = 0x00#8 := by
    rw [hcrc, join_eq_iff, lo8_join, hi8_join]
    exact and_iff_right rfl
  refine ⟨_, errorResponseIsClassified u f [c, lo8 (crc16 [u, f, c])] _ s h3 h6 h10 (.inr rfl) hs hl,
    fun hz => ?_, fun hz => ?_⟩
  · exact ⟨if_pos (hmatch.2 hz), rfl, decide_eq_true (hmatch.2 hz)⟩
  · exact ⟨if_neg (mt hmatch.1 hz), decide_eq_false (mt hmatch.1 hz)⟩

end Sys2Proof.Machine
end

section
/-! SUPPORT. The receive loop over a run of cycles (44_reassembly.md R103, R104, R119, R126): silence, foreign bytes in
time, and any delivery against the transaction level. -/

namespace Sys2Proof.Machine

/-! ### Cycles without a byte -/

/-- An RX step without a byte, before the wait has run out, only counts (R103, R122). -/
theorem step_rx_tick {s : State} (hs : s.st = .rx) (hr : s.input.rst = false)
    (hf : s.chan.fifo ++ s.input.arrivals = []) (hw : s.wctr ≠ s.timeout) :
    ∃ t, step s = .next t ∧ t.st = .rx ∧ t.chan.fifo = [] ∧ t.wctr = s.wctr + 1 ∧ t.content = s.content := by
  refine ⟨_, step_rx hs hr, ?_⟩
  rw [State.rxCycle_tick (s := s.beginCycle) hf hw]
  exact ⟨hs, hf, rfl, s.beginCycle_content⟩

/-- An RX step without a byte, when the wait has run out, ends the loop by a timeout (R103, R122). -/
theorem step_rx_timeout {s : State} (hs : s.st = .rx) (hr : s.input.rst = false)
    (hf : s.chan.fifo ++ s.input.arrivals = []) (hw : s.wctr = s.timeout) :
    ∃ t, step s = .next t ∧ t.st = .check ∧ t.tmo = true ∧ t.pos = s.pos ∧ t.mem = s.mem := by
  refine ⟨_, step_rx hs hr, ?_⟩
  rw [State.rxCycle_timeout (s := s.beginCycle) hf hw]
  exact ⟨rfl, rfl, rfl, rfl⟩

/-- A silent wait counts every cycle until it has run out (R103). -/
theorem runCycles_rx_silent (ins : List CycleInput) {rest : List CycleInput} {s : State} (hs : s.st = .rx)
    (hf : s.chan.fifo = []) (hin : s.env.inputs = ins ++ rest) (hQ : ∀ i ∈ ins, i.rst = false ∧ i.arrivals = [])
    (hw : s.wctr + ins.length ≤ s.timeout) :
    ∃ t, runCycles ins.length s = .next t ∧ t.st = .rx ∧ t.chan.fifo = [] ∧ t.wctr = s.wctr + ins.length ∧
      t.content = s.content := by
  induction ins generalizing s with
  | nil => exact ⟨s, rfl, hs, hf, rfl, rfl⟩
  | cons i ins ih =>
    obtain rfl := State.input_eq hin
    obtain ⟨hr, ha⟩ := hQ _ List.mem_cons_self
    rw [List.length_cons] at hw ⊢
    obtain ⟨u, hu, hust, huf, huw, huc⟩ := step_rx_tick hs hr (by rw [hf, ha]; rfl) (by omega)
    have htime : u.timeout = s.timeout := (congrArg State.timeout huc :)
    obtain ⟨t, ht, htst, htf, htw, htc⟩ := ih hust huf (by rw [step_inputs hu, hin]; rfl)
      (fun j hj => hQ j (List.mem_cons_of_mem _ hj)) (by omega)
    exact ⟨t, by rw [runCycles_succ hu, ht], htst, htf, by omega, htc.trans huc⟩

/-- Settles O29: the silent wait counts TIMEOUT cycles, and the next one times out. -/
theorem waitTimesOutAfterTimeoutCycles : Obligations.WaitTimesOutAfterTimeoutCycles := by
  intro s ins rest hs hw hf hin hQ
  refine ⟨fun hlen => ?_, fun hlen => ?_⟩
  · obtain ⟨t, ht, hst, -, htw, hc⟩ := runCycles_rx_silent ins hs hf hin hQ (by omega)
    exact ⟨t, ht, hst, by omega, (congrArg State.tmo hc :), (congrArg State.pos hc :), (congrArg State.mem hc :)⟩
  · obtain ⟨front, last, rfl⟩ := List.eq_nil_or_concat' ins |>.resolve_left (by rintro rfl; simp at hlen)
    rw [List.length_append, List.length_singleton] at hlen ⊢
    rw [List.append_assoc] at hin
    obtain ⟨u, hu, hust, huf, huw, huc⟩ := runCycles_rx_silent front hs hf hin
      (fun i hi => hQ i (List.mem_append_left _ hi)) (by omega)
    have hlast : u.input = last := State.input_eq (by rw [runCycles_inputs hu, hin, List.drop_left]; rfl)
    obtain ⟨hr, ha⟩ := hQ last (by simp)
    have htime : u.timeout = s.timeout := (congrArg State.timeout huc :)
    obtain ⟨t, ht, hst, htmo, hpos, hmem⟩ := step_rx_timeout hust (hlast ▸ hr) (by rw [huf, hlast, ha]; rfl) (by omega)
    exact ⟨t, by rw [runCycles_add 1 hu, runCycles_succ ht]; rfl, hst, htmo, hpos.trans (congrArg State.pos huc :),
      hmem.trans (congrArg State.mem huc :)⟩

/-! ### Foreign bytes in time -/

/-- In no `timeout + 1` of these cycles in a row does no byte arrive (R103). -/
def ArrivalsInTime (timeout : Nat) (ins : List CycleInput) : Prop :=
  ∀ k, k + timeout < ins.length → ∃ i ∈ (ins.drop k).take (timeout + 1), i.arrivals ≠ []

/-- Later cycles are in time if all are. -/
theorem ArrivalsInTime.of_append {timeout : Nat} {front ins : List CycleInput}
    (h : ArrivalsInTime timeout (front ++ ins)) : ArrivalsInTime timeout ins := by
  intro k hk
  obtain ⟨i, hi, ha⟩ := h (front.length + k) (by rw [List.length_append]; omega)
  rw [← List.drop_drop, List.drop_left] at hi
  exact ⟨i, hi, ha⟩

/-- Behind `timeout` cycles without an arrival a byte arrives. -/
theorem ArrivalsInTime.arrives {timeout : Nat} {front ins : List CycleInput} {i : CycleInput}
    (h : ArrivalsInTime timeout (front ++ i :: ins)) (hfront : ∀ j ∈ front, j.arrivals = [])
    (hlen : front.length = timeout) : i.arrivals ≠ [] := by
  obtain ⟨j, hj, ha⟩ := h 0 (by simp [hlen])
  rw [List.drop_zero, ← hlen, List.take_length_add_append] at hj
  rcases List.mem_append.1 hj with hj | hj
  · exact absurd (hfront j hj) ha
  · simpa [List.mem_singleton.1 hj] using ha

/-- The receive loop at position 0 with nothing but foreign bytes ahead, in a state with the content of `s`, and with
the cycles `front` since the wait began (R104, R105, R119). -/
structure ForeignLoop (s : State) (front : List CycleInput) (t : State) : Prop where
  st : t.st = .rx
  content : t.content = s.content
  foreign : ∀ b ∈ t.chan.fifo, b ≠ s.unitId
  waited : front.length = t.wctr
  silent : ∀ i ∈ front, i.arrivals = []

/-- A cycle of the foreign loop discards a byte, or waits on (R103, R105). -/
theorem ForeignLoop.step {s t : State} {front ins : List CycleInput} (h : ForeignLoop s front t) (hp : s.pos = 0#9)
    (hr : t.input.rst = false) (ha : ∀ b ∈ t.input.arrivals, b ≠ s.unitId)
    (hin : ArrivalsInTime s.timeout (front ++ t.input :: ins)) :
    ∃ u front', step t = .next u ∧ ForeignLoop s front' u ∧ ArrivalsInTime s.timeout (front' ++ ins) := by
  obtain ⟨hst, hcont, hforeign, hwaited, hsilent⟩ := h
  have htime : t.timeout = s.timeout := (congrArg State.timeout hcont :)
  cases hf : t.chan.fifo ++ t.input.arrivals with
  | nil =>
    have harr : t.input.arrivals = [] := (List.append_eq_nil_iff.1 hf).2
    have hw : t.wctr ≠ t.timeout := fun h => hin.arrives hsilent (by omega) harr
    obtain ⟨u, hu, hust, huf, huw, huc⟩ := step_rx_tick hst hr hf hw
    refine ⟨u, front ++ [t.input], hu, ⟨hust, huc.trans hcont, by simp [huf], by simp [huw, hwaited], fun i hi => ?_⟩,
      by simpa using hin⟩
    rcases List.mem_append.1 hi with hi | hi
    · exact hsilent i hi
    · rwa [List.mem_singleton.1 hi]
  | cons b q =>
    have hall : ∀ c ∈ b :: q, c ≠ s.unitId := fun c hc =>
      (List.mem_append.1 (hf ▸ hc)).elim (hforeign c) (ha c)
    have hunit : t.unitId = s.unitId := (congrArg State.unitId hcont :)
    have hpos : t.pos = 0#9 := (congrArg State.pos hcont :).trans hp
    refine ⟨_, [], step_rx hst hr, ?_, ArrivalsInTime.of_append (front := front ++ [t.input]) (by simpa using hin)⟩
    rw [State.rxCycle_discard (s := t.beginCycle) hf hpos (hunit ▸ hall b List.mem_cons_self)]
    refine ⟨hst, t.beginCycle_content.trans hcont, fun c hc => hall c (List.mem_cons_of_mem b ?_), rfl, by simp⟩
    have hq : t.beginCycle.popFifo.chan.fifo = q := by rw [State.popFifo_chan, State.beginCycle_fifo, hf]; rfl
    exact hq ▸ hc

/-- The foreign loop goes on through all cycles whose arrivals are foreign and in time (R104, R119). -/
theorem ForeignLoop.run (ins : List CycleInput) {rest front : List CycleInput} {s t : State}
    (h : ForeignLoop s front t) (hp : s.pos = 0#9) (hin : t.env.inputs = ins ++ rest)
    (hQ : ∀ i ∈ ins, i.rst = false ∧ ∀ b ∈ i.arrivals, b ≠ s.unitId)
    (htime : ArrivalsInTime s.timeout (front ++ ins)) {k : Nat} (hk : k ≤ ins.length) :
    ∃ u front', runCycles k t = .next u ∧ ForeignLoop s front' u := by
  induction ins generalizing t front k with
  | nil =>
    obtain rfl : k = 0 := Nat.le_zero.1 hk
    exact ⟨t, front, rfl, h⟩
  | cons i ins ih =>
    cases k with
    | zero => exact ⟨t, front, rfl, h⟩
    | succ k =>
      obtain rfl := State.input_eq hin
      obtain ⟨hr, ha⟩ := hQ _ List.mem_cons_self
      obtain ⟨u, front', hu, hloop, htime'⟩ := h.step hp hr ha htime
      rw [runCycles_succ hu]
      exact ih hloop (by rw [step_inputs hu, hin]; rfl) (fun j hj => hQ j (List.mem_cons_of_mem _ hj)) htime'
        (Nat.le_of_succ_le_succ hk)

/-- Settles O30: the foreign loop keeps the content it starts with. -/
theorem foreignBytesKeepTheLoopAtPositionZero : Obligations.ForeignBytesKeepTheLoopAtPositionZero := by
  intro s ins rest hs hp hw hf hin hQ htime k hk
  have hstart : ForeignLoop s [] s := ⟨hs, rfl, hf, hw.symm, by simp⟩
  obtain ⟨t, -, ht, hst, hc, -⟩ := hstart.run ins hp hin hQ htime hk
  exact ⟨t, ht, hst, (congrArg State.pos hc :).trans hp, (congrArg State.mem hc :), (congrArg State.status hc :),
    (congrArg State.exp hc :), (congrArg State.cls hc :), (congrArg State.rxFc hc :)⟩

/-! ### Any delivery -/

/-- A classification leaves the response it classifies (R110). -/
theorem State.checkAction_response (s : State) :
    s.checkAction.mem = s.mem ∧ s.checkAction.pos = s.pos ∧ s.checkAction.rxFc = s.rxFc ∧
      s.checkAction.cls = s.cls ∧ s.checkAction.tmo = s.tmo := by
  rcases s.checkAction_cases with ⟨-, h⟩ | ⟨-, -, h⟩ | ⟨-, -, h⟩ <;> rw [h] <;> exact ⟨rfl, rfl, rfl, rfl, rfl⟩

/-- Settles O37: the run of the receive loop and of CHECK ends with the content of the transaction level, whose
classification leaves the response as the loop left it. -/
theorem receiveAgreesWithTransactionLevel : Obligations.ReceiveAgreesWithTransactionLevel := by
  rintro s arr stream ins rest hs hi hw hin harr rfl hr hlat
  obtain ⟨-, hlt, -⟩ := (State.rxInv_rx hs).1 hi
  have hne : s.pos ≠ s.exp := fun h => Nat.lt_irrefl _ (h ▸ hlt)
  obtain ⟨n, t, ht, hidle, -, hc⟩ := runCycles_receive hs hne hw hin harr hr hlat
  generalize s.receive _ = r at hc ⊢
  obtain ⟨hmem, hpos, hfc, hcls, htmo⟩ := r.checkAction_response
  exact ⟨n, t, ht, hidle, (congrArg State.status hc :), (congrArg State.mem hc :).trans hmem,
    (congrArg State.pos hc :).trans hpos, (congrArg State.rxFc hc :).trans hfc, (congrArg State.cls hc :).trans hcls,
    (congrArg State.tmo hc :).trans htmo, (congrArg State.rxPayloadOff hc :), (congrArg State.rxPayloadLen hc :),
    (congrArg State.crcCalc hc :), (congrArg State.crcRecv hc :), (congrArg State.crcMatch hc :)⟩

end Sys2Proof.Machine
end

section
/-! SUPPORT. The transition table of the control state (44_reassembly.md R125): where each kind of cycle takes `st`. -/

namespace Sys2Proof.Machine

/-! ### IDLE -/

/-- A host write to `CMD` of an idle block issues the command (R68). -/
theorem State.hostCycle_command {s : State} (hs : s.st = .idle) (hw : s.bus.we = true) (ha : s.bus.addr = addrCmd) :
    s.hostCycle = s.issue s.bus.wdata := by
  rw [State.hostCycle_write hs hw, ha]
  rfl

/-- Any other host access leaves the block idle (R39, R124). -/
theorem State.hostCycle_idle {s : State} (hs : s.st = .idle) (h : s.bus.we = false ∨ s.bus.addr ≠ addrCmd) :
    s.hostCycle.st = .idle := by
  cases hw : s.bus.we with
  | false => rw [State.hostCycle_noWrite hw, hs]
  | true =>
    have ha : s.bus.addr.toNat ≠ 0 := fun h0 => h.resolve_left (by simp [hw]) (BitVec.eq_of_toNat_eq h0)
    rw [State.hostCycle_write hs hw]
    split
    · exact hs
    · exact (s.regWrite_frame _ ha).1.trans hs

/-! ### The end of a stage -/

/-- A build on its own ends the command (R69). -/
theorem State.built_buildEnd_idle {s : State} (h : s.pend = .none) (m : Memory) (l : Byte) (c : Word) :
    (s.built m l c).buildEnd.st = .idle := by
  rw [State.built_buildEnd_none _ _ _ _ h]

/-- A build with an exchange pending goes on to PH_XSTART (R69). -/
theorem State.built_buildEnd_xStart {s : State} (h : s.pend = .exchange) (m : Memory) (l : Byte) (c : Word) :
    (s.built m l c).buildEnd.st = s.st ∧ (s.built m l c).buildEnd.phase = .xStart := by
  rw [State.built_buildEnd_exchange _ _ _ _ h]
  exact ⟨rfl, rfl⟩

/-- A build phase that is not refused goes on to PH_XSTART when an exchange is pending (R69, R72). -/
theorem State.action_pending {s : State} (hpend : s.pend = .exchange)
    (hph : s.phase = .bRead ∨ s.phase = .bWSingle ∨ s.phase = .bWMulti)
    (hn : s.phase = .bWMulti → s.val.toNat ≤ 123) : s.action.st = s.st ∧ s.action.phase = .xStart := by
  rcases hph with hph | hph | hph <;> rw [State.action, hph]
  · exact State.built_buildEnd_xStart hpend ..
  · exact State.built_buildEnd_xStart hpend ..
  · obtain ⟨m, c, he, -⟩ := s.actBuildWriteMulti_ok (hn hph)
    rw [he]
    exact State.built_buildEnd_xStart hpend ..

/-- Every other phase's action, but PH_XSTART of a frame, ends the command (R69, R70, R93). -/
theorem State.action_ends {s : State} (hne : s.phase ≠ .none) (hx : s.phase = .xStart → s.txCount < 2)
    (hpend : s.pend = .exchange → s.phase = .bWMulti ∧ 123 < s.val.toNat) : s.action.st = .idle := by
  have halone : s.phase ≠ .bWMulti → s.pend = .none := by
    intro h
    cases hp : s.pend with
    | none => rfl
    | exchange => exact absurd (hpend hp).1 h
  rw [State.action]
  cases hph : s.phase with
  | none => exact absurd hph hne
  | crcGen => simp [State.actCrcGen, apply_ite State.st]
  | crcChk => simp [State.actCrcCheck, apply_ite State.st]
  | bRead => exact State.built_buildEnd_idle (halone (by simp [hph])) ..
  | bWSingle => exact State.built_buildEnd_idle (halone (by simp [hph])) ..
  | bWMulti =>
    by_cases hn : 123 < s.val.toNat
    · rw [State.actBuildWriteMulti_refused hn]; rfl
    · obtain ⟨m, c, he, -⟩ := s.actBuildWriteMulti_ok (Nat.not_lt.1 hn)
      have hp : s.pend = .none := by
        cases hp : s.pend with
        | none => rfl
        | exchange => exact absurd (hpend hp).2 hn
      rw [he]
      exact State.built_buildEnd_idle hp ..
  | xStart => rw [State.actXStart_short (hx hph)]; rfl
  | flush => rfl
  | badOp => rfl

/-- PH_XSTART of a frame begins to transmit (R92). -/
theorem State.action_xStart {s : State} (hph : s.phase = .xStart) (h : 2 ≤ s.txCount) : s.action.st = .tx := by
  rw [State.action, hph, State.actXStart_ok h]

/-! ### A byte in RX -/

/-- Before the expected length the position is inside `RX_FRAME` (R109, R138). -/
theorem State.pos_lt_of_responseInv {s : State} (hi : s.responseInv) (hlt : s.pos.toNat < s.exp.toNat) :
    s.pos.toNat < rxBufSize := by
  obtain ⟨hexp, -⟩ := hi
  exact lt_of_lt_of_le (hexp ▸ hlt) s.expectedLength_bounds.2

/-- An accepted byte moves the position on, and the block to CHECK when it completes the frame (R106, R122). -/
theorem State.rxCycle_accept_st {s : State} {b : Byte} {q : List Byte} (hs : s.st = .rx)
    (hf : s.chan.fifo = b :: q) (hd : s.discards b = false) :
    s.rxCycle.pos = s.pos + 1 ∧ (s.rxCycle.pos = s.rxCycle.exp → s.rxCycle.st = .check) ∧
      (s.rxCycle.pos ≠ s.rxCycle.exp → s.rxCycle.st = .rx) := by
  rw [State.rxCycle_accept hf hd]
  by_cases he : s.pos + 1 = s.expAfter b
  · rw [if_pos he]
    exact ⟨rfl, fun _ => rfl, absurd he⟩
  · rw [if_neg he]
    exact ⟨rfl, (absurd · he), fun _ => hs⟩

/-! ### The table -/

/-- The rows of the table from IDLE (R68, R124). -/
theorem State.hostCycle_rows {s : State} (hs : s.st = .idle) :
    (s.bus.we = true → s.bus.addr = addrCmd → s.hostCycle.st = .stage) ∧
    ((s.bus.we = false ∨ s.bus.addr ≠ addrCmd) → s.hostCycle.st = .idle) := by
  refine ⟨fun hw ha => ?_, State.hostCycle_idle hs⟩
  rw [State.hostCycle_command hs hw ha]
  rfl

/-- The rows of the table from STAGE (R69, R70). -/
theorem State.stageCycle_rows {s : State} (hs : s.st = .stage) (hi : s.phaseInv) :
    (1 < s.lat → s.stageCycle.st = .stage ∧ s.stageCycle.phase = s.phase ∧ s.stageCycle.lat = s.lat - 1) ∧
    (s.lat = 1 → s.phase = .xStart → 2 ≤ s.txCount → s.stageCycle.st = .tx) ∧
    (s.lat = 1 → s.pend = .exchange → (s.phase = .bWMulti → s.val.toNat ≤ 123) →
      s.stageCycle.st = .stage ∧ s.stageCycle.phase = .xStart) ∧
    (s.lat = 1 → (s.phase = .xStart → s.txCount < 2) →
      (s.pend = .exchange → s.phase = .bWMulti ∧ 123 < s.val.toNat) → s.stageCycle.st = .idle) := by
  obtain ⟨hne, -, hbuild⟩ := (State.phaseInv_stage hs).1 hi
  refine ⟨fun hl => ?_, fun hl hph h2 => ?_, fun hl hpend hn => ?_, fun hl hx hpend => ?_⟩
  · rw [State.stageCycle_count hl]
    exact ⟨hs, rfl, rfl⟩
  · rw [State.stageCycle_act hl.le, State.action_xStart hph h2]
  · rw [State.stageCycle_act hl.le]
    obtain ⟨hst, hph⟩ := State.action_pending hpend (hbuild hpend) hn
    exact ⟨hst.trans hs, hph⟩
  · rw [State.stageCycle_act hl.le, State.action_ends hne hx hpend]

/-- The rows of the table from TX (R94). -/
theorem State.txCycle_rows {s : State} (hs : s.st = .tx) :
    (s.input.txReady = true → s.txi.toNat + 1 = s.txCount → s.txCycle.st = .drain) ∧
    (s.input.txReady = true → s.txi.toNat + 1 < s.txCount →
      s.txCycle.st = .tx ∧ s.txCycle.txi.toNat = s.txi.toNat + 1) ∧
    (s.input.txReady = false → s.txCycle.st = .tx ∧ s.txCycle.txi = s.txi) := by
  refine ⟨fun hr hk => ?_, fun hr hk => ?_, fun hr => ?_⟩
  · rw [State.txCycle_last hr hk]
  · rw [State.txCycle_next hr hk.ne]
    have hlen := s.txCount_lt
    refine ⟨hs, ?_⟩
    show (s.txi + 1).toNat = s.txi.toNat + 1
    bv_omega
  · rw [State.txCycle_stalled hr]
    exact ⟨hs, rfl⟩

/-- The rows of the table from DRAIN (R95). -/
theorem State.drainCycle_rows {s : State} (hs : s.st = .drain) :
    (s.chan.unsent = [] → s.drainCycle.st = .rx) ∧ (s.chan.unsent ≠ [] → s.drainCycle.st = .drain) := by
  refine ⟨fun hu => ?_, fun hu => ?_⟩
  · rw [State.drainCycle_turns hu]
  · rw [State.drainCycle_waits hu, hs]

/-- The rows of the table from RX (R105, R106, R122). -/
theorem State.rxCycle_rows {s : State} (hs : s.st = .rx) (hp : s.pos.toNat < rxBufSize) :
    (∀ (b : Byte) (q : List Byte), s.chan.fifo = b :: q →
      (s.pos = 0#9 → b ≠ s.unitId → s.rxCycle.st = .rx ∧ s.rxCycle.pos = 0#9) ∧
      ((s.pos ≠ 0#9 ∨ b = s.unitId) →
        s.rxCycle.pos.toNat = s.pos.toNat + 1 ∧ (s.rxCycle.pos = s.rxCycle.exp → s.rxCycle.st = .check) ∧
          (s.rxCycle.pos ≠ s.rxCycle.exp → s.rxCycle.st = .rx))) ∧
    (s.chan.fifo = [] → s.wctr = s.timeout → s.rxCycle.st = .check) ∧
    (s.chan.fifo = [] → s.wctr < s.timeout → s.rxCycle.st = .rx ∧ s.rxCycle.wctr = s.wctr + 1) := by
  refine ⟨fun b q hf => ⟨fun h0 hb => ?_, fun hb => ?_⟩, fun hf hw => ?_, fun hf hw => ?_⟩
  · rw [State.rxCycle_discard hf h0 hb]
    exact ⟨hs, h0⟩
  · obtain ⟨hpos, hst⟩ := State.rxCycle_accept_st hs hf ((s.not_discards_iff b).2 hb)
    exact ⟨by rw [hpos, State.pos_succ_toNat hp], hst⟩
  · rw [State.rxCycle_timeout hf hw]
    rfl
  · rw [State.rxCycle_tick hf hw.ne]
    exact ⟨hs, rfl⟩

/-- The rows of the table from CHECK (R123). -/
theorem State.checkCycle_rows {s : State} (hs : s.st = .check) :
    (1 < s.lat → s.checkCycle.st = .check ∧ s.checkCycle.lat = s.lat - 1) ∧
    (s.lat = 1 → s.checkCycle.st = .idle) := by
  refine ⟨fun hl => ?_, fun hl => ?_⟩
  · rw [State.checkCycle_count hl]
    exact ⟨hs, rfl⟩
  · rw [State.checkCycle_act hl.le]
    exact s.checkAction_frame.1

/-- In a cycle without reset, a busy block does the cycle of its control state. -/
theorem step_busy_eq {s t c : State} (h : step s = .next t) (hr : s.input.rst = false) (hs : s.st ≠ .idle)
    (hc : s.beginCycle.blockCycle = c) : t = s.beginCycle.endCycle c := by
  rw [step_busy hr hs, hc] at h
  exact (Outcome.next_inj h).symm

/-- Settles O49: a reset, or the rows of the control state for the state held in the cycle. -/
theorem controlStateTransitions : Obligations.ControlStateTransitions := by
  rintro s t ⟨-, -, -, hph, -, hrx, -⟩ h
  refine ⟨fun hr => ?_, fun hr => ?_⟩
  · rw [step_eq, if_pos hr] at h
    obtain rfl := Outcome.next_inj h
    exact ⟨rfl, rfl⟩
  cases hs : s.st with
  | idle =>
    obtain rfl := Outcome.next_inj ((step_idle s hs hr).symm.trans h)
    simp only [reduceCtorEq, false_implies, true_implies, implies_true, and_true]
    exact State.hostCycle_rows (s := s.beginCycle) hs
  | stage =>
    obtain rfl := step_busy_eq h hr (by simp [hs]) (State.blockCycle_stage hs)
    simp only [reduceCtorEq, false_implies, true_implies, implies_true, and_true, true_and]
    exact State.stageCycle_rows (s := s.beginCycle) hs hph
  | tx =>
    obtain rfl := step_busy_eq h hr (by simp [hs]) (State.blockCycle_tx hs)
    simp only [reduceCtorEq, false_implies, true_implies, implies_true, and_true, true_and]
    exact State.txCycle_rows (s := s.beginCycle) hs
  | drain =>
    obtain rfl := step_busy_eq h hr (by simp [hs]) (State.blockCycle_drain hs)
    simp only [reduceCtorEq, false_implies, true_implies, implies_true, and_true, true_and]
    exact State.drainCycle_rows (s := s.beginCycle) hs
  | rx =>
    obtain rfl := step_busy_eq h hr (by simp [hs]) (State.blockCycle_rx hs)
    obtain ⟨-, hlt, -, -, hresp⟩ := (State.rxInv_rx hs).1 hrx
    simp only [reduceCtorEq, false_implies, true_implies, and_true, true_and]
    exact State.rxCycle_rows (s := s.beginCycle) hs (State.pos_lt_of_responseInv hresp hlt)
  | check =>
    obtain rfl := step_busy_eq h hr (by simp [hs]) (State.blockCycle_check hs)
    simp only [reduceCtorEq, false_implies, true_implies, implies_true, true_and]
    exact State.checkCycle_rows (s := s.beginCycle) hs

end Sys2Proof.Machine
end

section
/-! PROOFS. No step stops: the block raises no exception, and its hangs are infinite runs (60_exceptions.md R129,
R134). -/

namespace Sys2Proof.Machine

/-- Settles O46: the reset cycle, the cycle of a current instruction (`exec_total` through `step_cases`) and the idle
cycle each answer a next state. -/
theorem everyStepGoesOn : Obligations.EveryStepGoesOn := by
  intro s
  obtain ⟨-, hreset⟩ | ⟨-, -, t, -, -, hrun⟩ | ⟨-, -, hhost⟩ := step_cases s
  · exact ⟨s.beginCycle.endCycle s.beginCycle.resetEdge, hreset⟩
  · exact ⟨s.beginCycle.endCycle t, hrun⟩
  · exact ⟨s.beginCycle.endCycle s.beginCycle.hostCycle, hhost⟩

end Sys2Proof.Machine
end

section
/-! PROOFS. Reset (70_reset_and_hazards.md R145, R146): what a reset cycle leaves and drives, and the invariant right
after reset. -/

namespace Sys2Proof.Machine

/-- A reset cycle takes the reset edge, whatever the state and the host do (R145). -/
theorem step_reset {s : State} (hr : s.input.rst = true) :
    step s = .next (s.beginCycle.endCycle s.beginCycle.resetEdge) := by
  rw [step_eq, if_pos hr]

/-- The line direction is not driven in a reset cycle (R145). -/
theorem State.outputs_reset_dir {s : State} (hr : s.input.rst = true) : s.outputs.dir = false := by
  simp [State.outputs, hr]

/-- The reset edge clears BUSY, DIR and CRC_MATCH (R19, R146). -/
theorem State.resetEdge_flags (s : State) : s.resetEdge.flags = 0x00#8 := by
  simp [State.flags, State.busy, State.reset]

/-- Settles O50: the reset edge writes every register and all hidden state, leaves the channel alone, and the cycle's
outputs are those of a reset cycle. -/
theorem resetStepLeavesTheResetState : Obligations.ResetStepLeavesTheResetState := by
  intro s hr
  have hstep := step_reset hr
  obtain ⟨hvalid, hpop, hflush⟩ := State.outputs_reset (s := s.beginCycle) hr
  have hdir := State.outputs_reset_dir (s := s.beginCycle) hr
  exact ⟨_, hstep, rfl, rfl, s.beginCycle.resetEdge_flags, rfl, rfl, rfl, rfl, rfl, rfl, rfl, rfl, rfl, rfl, rfl, rfl,
    rfl, rfl, rfl, rfl, rfl, rfl, rfl, rfl, rfl, rfl, hvalid, hpop, hflush, hdir, fun _ => step_hRdata hstep⟩

/-- Settles O55: the state after reset differs from what the reset edge makes of it in the count of resets only, and
the invariant of an idle block does not read that count. -/
theorem invHoldsAtReset : Obligations.InvHoldsAtReset := State.reset.resetEdge_Inv

end Sys2Proof.Machine
end

section
/-! PROOFS. The timing of a command without an exchange (70_reset_and_hazards.md R161): its acceptance draws the latency,
STAGE counts it down, and the last STAGE cycle finishes the command. -/

namespace Sys2Proof.Machine

/-- A host write to `CMD` of an idle block leaves the command in STAGE at its first phase, with the cycle's latency draw
(R68, R69). -/
theorem step_accept {s : State} (hs : s.st = .idle) (hr : s.input.rst = false) (hw : s.bus.we = true)
    (ha : s.bus.addr = addrCmd) :
    ∃ t, step s = .next t ∧ t.st = .stage ∧ t.phase = (firstPhase s.bus.wdata).1 ∧
      t.pend = (firstPhase s.bus.wdata).2 ∧ t.lat = s.input.extraLat + 1 ∧ t.lastCmd = s.bus.wdata := by
  refine ⟨_, step_idle s hs hr, ?_⟩
  rw [State.hostCycle_command (s := s.beginCycle) hs hw ha]
  exact ⟨rfl, rfl, rfl, rfl, rfl⟩

/-- A STAGE step with latency left only counts it down (R70). -/
theorem step_stage_count {s : State} (hs : s.st = .stage) (hr : s.input.rst = false) (hl : 1 < s.lat) :
    ∃ t, step s = .next t ∧ t.st = .stage ∧ t.lat = s.lat - 1 ∧ t.content = s.content := by
  refine ⟨_, step_busy hr (by simp [hs]), ?_⟩
  rw [State.blockCycle_stage (by exact hs), State.stageCycle_count (s := s.beginCycle) hl]
  exact ⟨hs, rfl, s.beginCycle_content⟩

/-- STAGE is still in its phase as long as fewer cycles have passed than its latency (R70). -/
theorem runCycles_stage (ins : List CycleInput) {rest : List CycleInput} {s : State} (hs : s.st = .stage)
    (hin : s.env.inputs = ins ++ rest) (hr : ∀ i ∈ ins, i.rst = false) (hl : ins.length < s.lat) :
    ∃ t, runCycles ins.length s = .next t ∧ t.st = .stage ∧ t.lat = s.lat - ins.length ∧ t.content = s.content := by
  induction ins generalizing s with
  | nil => exact ⟨s, rfl, hs, rfl, rfl⟩
  | cons i ins ih =>
    have hr0 : s.input.rst = false := State.input_eq hin ▸ hr i List.mem_cons_self
    rw [List.length_cons] at hl ⊢
    obtain ⟨u, hu, hust, hul, huc⟩ := step_stage_count hs hr0 (by omega)
    obtain ⟨t, ht, hst, htl, htc⟩ := ih hust (by rw [step_inputs hu, hin]; rfl)
      (fun j hj => hr j (List.mem_cons_of_mem i hj)) (by omega)
    exact ⟨t, by rw [runCycles_succ hu, ht], hst, by omega, htc.trans huc⟩

/-- The action of a phase other than PH_XSTART, with nothing pending, is a `finish` with one of three statuses (R69, R73,
R86 to R90, R101). -/
theorem State.action_finish {s : State} (hne : s.phase ≠ .none) (hx : s.phase ≠ .xStart) (hpend : s.pend = .none) :
    ∃ t r, s.action = State.finish t r ∧ (r = .done ∨ r = .commandError ∨ r = .invalidFrame) := by
  rw [State.action]
  cases hph : s.phase with
  | none => exact absurd hph hne
  | xStart => exact absurd hph hx
  | crcGen =>
    rcases Nat.lt_or_ge s.txCount 2 with h | h
    · exact ⟨_, _, State.actCrcGen_short h, .inr (.inl rfl)⟩
    · exact ⟨_, _, State.actCrcGen_ok h, .inl rfl⟩
  | crcChk =>
    rcases Nat.lt_or_ge s.txCount 2 with h | h
    · exact ⟨_, _, State.actCrcCheck_short h, .inr (.inl rfl)⟩
    · refine ⟨_, _, State.actCrcCheck_ok h, ?_⟩
      split
      · exact .inl rfl
      · exact .inr (.inr rfl)
  | bRead => exact ⟨_, _, State.buildEnd_none hpend, .inl rfl⟩
  | bWSingle => exact ⟨_, _, State.buildEnd_none hpend, .inl rfl⟩
  | bWMulti =>
    rcases Nat.lt_or_ge maxCount s.val.toNat with h | h
    · exact ⟨_, _, State.actBuildWriteMulti_refused h, .inr (.inl rfl)⟩
    · obtain ⟨m, c, he, -⟩ := s.actBuildWriteMulti_ok h
      exact ⟨_, _, he.trans (State.buildEnd_none hpend), .inl rfl⟩
  | flush => exact ⟨_, _, rfl, .inl rfl⟩
  | badOp => exact ⟨_, _, rfl, .inr (.inl rfl)⟩

/-- The last STAGE step of a command without an exchange finishes it (R70, R74). -/
theorem step_stage_finish {s : State} (hs : s.st = .stage) (hr : s.input.rst = false) (hl : s.lat ≤ 1)
    (hne : s.phase ≠ .none) (hx : s.phase ≠ .xStart) (hpend : s.pend = .none) :
    ∃ t, step s = .next t ∧ t.st = .idle ∧ t.phase = .none ∧ t.pend = .none ∧ t.lat = 0 ∧ t.lastCmd = s.lastCmd ∧
      (t.status = 0x01#8 ∨ t.status = 0x02#8 ∨ t.status = 0x12#8) := by
  obtain ⟨u, r, he, hres⟩ := State.action_finish (s := s.beginCycle) hne hx hpend
  have hcycle : s.beginCycle.blockCycle = u.finish r := by
    rw [State.blockCycle_stage (by exact hs), State.stageCycle_act (by exact hl), he]
  obtain ⟨hcmd, -⟩ := s.beginCycle.blockCycle_frame
  refine ⟨_, step_busy hr (by simp [hs]), ?_⟩
  rw [hcycle] at hcmd ⊢
  refine ⟨rfl, rfl, rfl, rfl, hcmd, ?_⟩
  rcases hres with rfl | rfl | rfl
  · exact .inl rfl
  · exact .inr (.inl rfl)
  · exact .inr (.inr rfl)

/-- STAGE of a command without an exchange finishes it in as many cycles as its latency (R70, R161). -/
theorem runCycles_stage_finish (ins : List CycleInput) {rest : List CycleInput} {s : State} (hnil : ins ≠ [])
    (hs : s.st = .stage) (hl : s.lat = ins.length) (hin : s.env.inputs = ins ++ rest) (hr : ∀ i ∈ ins, i.rst = false)
    (hne : s.phase ≠ .none) (hx : s.phase ≠ .xStart) (hpend : s.pend = .none) :
    ∃ t, runCycles ins.length s = .next t ∧ t.st = .idle ∧ t.phase = .none ∧ t.pend = .none ∧ t.lat = 0 ∧
      t.lastCmd = s.lastCmd ∧ (t.status = 0x01#8 ∨ t.status = 0x02#8 ∨ t.status = 0x12#8) := by
  obtain ⟨front, last, rfl⟩ := (List.eq_nil_or_concat' ins).resolve_left hnil
  rw [List.length_append, List.length_singleton] at hl ⊢
  rw [List.append_assoc] at hin
  obtain ⟨u, hu, hust, hul, huc⟩ := runCycles_stage front hs hin (fun i hi => hr i (List.mem_append_left _ hi)) (by omega)
  have hlast : u.input = last := State.input_eq (by rw [runCycles_inputs hu, hin, List.drop_left]; rfl)
  have hphase : u.phase = s.phase := (congrArg State.phase huc :)
  have hcmd : u.lastCmd = s.lastCmd := (congrArg State.lastCmd huc :)
  obtain ⟨t, ht, hst, hph, hpd, hlat, htcmd, hstatus⟩ := step_stage_finish hust (hlast ▸ hr last (by simp)) (by omega)
    (hphase ▸ hne) (hphase ▸ hx) ((congrArg State.pend huc :).trans hpend)
  exact ⟨t, by rw [runCycles_add 1 hu, runCycles_succ ht]; rfl, hst, hph, hpd, hlat, htcmd.trans hcmd, hstatus⟩

/-- Settles O12: the accepting step draws the latency; a run of fewer STAGE cycles leaves some of it, and a run of as
many finishes. -/
theorem nonExchangeCommandTiming : Obligations.NonExchangeCommandTiming := by
  rintro s v x ins rest hs hw ha rfl hpend hx hin hr hins hlen
  obtain rfl := State.input_eq hin
  obtain ⟨u, hu, hust, hphase, hupend, hlat, hcmd⟩ := step_accept hs hr hw ha
  have huin : u.env.inputs = ins ++ rest := by rw [step_inputs hu, hin]; rfl
  refine ⟨fun k hk hkl => ?_, ?_⟩
  · obtain ⟨j, rfl⟩ := Nat.exists_eq_add_of_le' hk
    have hj : (ins.take j).length = j := List.length_take_of_le (by omega)
    obtain ⟨t, ht, hst, -⟩ := runCycles_stage (ins.take j) (rest := ins.drop j ++ rest) hust
      (by rw [huin, ← List.append_assoc, List.take_append_drop]) (fun i hi => hins i (List.mem_of_mem_take hi))
      (by omega)
    rw [hj] at ht
    exact ⟨t, by rw [runCycles_succ hu, ht], hst, t.busy_iff.2 (by simp [hst])⟩
  · obtain ⟨hne, -⟩ := firstPhase_ok s.bus.wdata
    have hnil : ins ≠ [] := List.ne_nil_of_length_pos (by omega)
    obtain ⟨t, ht, hst, hph, hpd, hl, htcmd, hstatus⟩ := runCycles_stage_finish ins hnil hust (hlat.trans hlen.symm) huin
      hins (hphase ▸ hne) (hphase ▸ hx) (hupend.trans hpend)
    exact ⟨t, by rw [runCycles_succ hu, ht], hst, t.not_busy_iff.2 hst, hph, hpd, hl, htcmd.trans hcmd, hstatus⟩

end Sys2Proof.Machine
end
